-- ==== Sys2Proof/Word.lean ====
section
/-! DEFINITION. The words of the core: bytes, 16-bit and 32-bit patterns (00_scope.md R10, R12). -/

namespace Sys2Proof

/-- `u8`: a byte (R12). -/
abbrev Byte := BitVec 8

/-- A 16-bit pattern: a temperature word (R92), an S16 or RAW16 operand (R81), a `u16` parameter. -/
abbrev Word16 := BitVec 16

/-- A 32-bit pattern: a `Duration` in microseconds (R12). -/
abbrev Word32 := BitVec 32

end Sys2Proof
end

