-- ==== Sys2Proof/Config.lean ====
section
/-! DEFINITION. The implementation parameters of 00_scope.md R8, with their defaults and constraints, and the one
free value of the model. -/

namespace Sys2Proof

/-- The sixteen parameters of R8. `P_RES_CODE(r)` is held as its four values. State carries a copy that no step
writes (R35; log entry 1). -/
structure Config where
  familyCode         : Byte
  cmdConvert         : Byte
  cmdReadSp          : Byte
  cmdWriteSp         : Byte
  cmdCopySp          : Byte
  cmdRecall          : Byte
  cmdReadPwr         : Byte
  code9              : BitVec 2
  code10             : BitVec 2
  code11             : BitVec 2
  code12             : BitVec 2
  cfgReservedMask    : Byte
  cfgReservedValue   : Byte
  cfgStrict          : Bool
  eepromWriteDelayMs : Word16
  recallPoll         : Bool
  recallDelayMs      : Word16
  recallPollLimit    : Word16
  seqMax             : Byte
  deriving DecidableEq, Repr

/-- The defaults of R8. PRESUMED: most are the spec's general-knowledge values (93_implementation_defined.md G1 to
G4; log entry 14). -/
def Config.default : Config where
  familyCode         := 0x28
  cmdConvert         := 0x44
  cmdReadSp          := 0xBE
  cmdWriteSp         := 0x4E
  cmdCopySp          := 0x48
  cmdRecall          := 0xB8
  cmdReadPwr         := 0xB4
  code9              := 0b00
  code10             := 0b01
  code11             := 0b10
  code12             := 0b11
  cfgReservedMask    := 0x9F
  cfgReservedValue   := 0x1F
  cfgStrict          := true
  eepromWriteDelayMs := 10
  recallPoll         := false
  recallDelayMs      := 10
  recallPollLimit    := 1000
  seqMax             := 255

/-- The constraints R8 puts on the parameters. -/
abbrev Config.wf (c : Config) : Prop :=
  [c.cmdConvert, c.cmdReadSp, c.cmdWriteSp, c.cmdCopySp, c.cmdRecall, c.cmdReadPwr].Nodup ∧
  [c.code9, c.code10, c.code11, c.code12].Nodup ∧
  c.cfgReservedValue &&& 0x60 = 0 ∧
  c.cfgReservedMask = 0x9F ∧
  1 ≤ c.recallPollLimit.toNat

/-- FREE VALUE: the `crc` register's value between computations, which R28 calls unspecified; one draw for each use
of the counter State.freeCtr (log entry 7). -/
opaque Config.unspecifiedCrc : Nat → Byte

end Sys2Proof
end

