-- ==== Sys2Proof/Syntax.lean ====
section
/-! DEFINITION. The requests of the core, its instructions (30_encoding.md R81 to R83). -/

namespace Sys2Proof

/-- `Res`: the four resolutions (R12, R180). -/
inductive Res where
  | r9
  | r10
  | r11
  | r12
  deriving DecidableEq, Repr

/-- `Addr`: the 8 bytes of a device address (R12, R51). -/
structure Addr where
  a0 : Byte
  a1 : Byte
  a2 : Byte
  a3 : Byte
  a4 : Byte
  a5 : Byte
  a6 : Byte
  a7 : Byte
  deriving DecidableEq, Repr

/-- The 9 bytes of a scratchpad: RAW9 operands and `sp[0..8]` (R81, R91). -/
structure Raw9 where
  b0 : Byte
  b1 : Byte
  b2 : Byte
  b3 : Byte
  b4 : Byte
  b5 : Byte
  b6 : Byte
  b7 : Byte
  b8 : Byte
  deriving DecidableEq, Repr

/-- One constructor per row of the opcode map R83. S16 operands are their 16-bit patterns (R96). -/
inductive Instr where
  | crcCompute (bytes : List Byte)
  | crcVerify (bytes : List Byte)
  | spDecode (raw : Raw9)
  | spEncodeConfig (r : Res)
  | sensorData (raw : Raw9)
  | tempConvert (t : Word16) (r : Res)
  | convTime (r : Res)
  | regBits (r : Res)
  | fromRegBits (b : Byte)
  | checkAddress (a : Addr)
  | startConvAddr (a : Addr)
  | startConvAll
  | readScratchpad (a : Addr)
  | writeScratchpad (a : Addr) (th tl cfg : Byte)
  | copyScratchpad (a : Addr)
  | recallEeprom (a : Addr)
  | readPower (a : Addr)
  | readData (a : Addr)
  | setConfig (a : Addr) (lo hi : Word16) (r : Res)
  deriving DecidableEq, Repr

end Sys2Proof
end

