-- ==== Sys2Proof/Machine/Operands.lean ====
section
/-! DEFINITION. Operand and result forms (30_encoding.md R81, R87, R91 to R96): byte order, resolutions and their
codes, addresses, scratchpad fields. -/

namespace Sys2Proof.Machine

/-! ## Byte order (R55, R96) -/

/-- `{hi, lo}`: the 16-bit word of two bytes (R10, R96). -/
def word16 (lo hi : Byte) : Word16 := hi ++ lo

/-- `w[7:0]`. -/
def loByte (w : Word16) : Byte := w.extractLsb' 0 8

/-- `w[15:8]`. -/
def hiByte (w : Word16) : Byte := w.extractLsb' 8 8

/-- The 16-bit result bytes, low byte first (R87). -/
def le16 (w : Word16) : List Byte := [loByte w, hiByte w]

/-- The u32 result bytes, low byte first (R87). -/
def le32 (d : Word32) : List Byte :=
  [d.extractLsb' 0 8, d.extractLsb' 8 8, d.extractLsb' 16 8, d.extractLsb' 24 8]

/-- `trunc_8(v)` (R10): the alarm byte of an integer (R93). -/
def trunc8 (v : Int) : Byte := BitVec.ofInt 8 v

/-- `zext_8` of one bit (R10). -/
def zextBit (b : BitVec 1) : Byte := b.setWidth 8

/-- The result byte of a truth value (R87, CRC_VERIFY). -/
def boolByte (b : Bool) : Byte := if b then 0x01 else 0x00

/-! ## Resolutions (R12, R81, R95) -/

/-- `bits(r)`. -/
def resBits (r : Res) : Nat :=
  match r with
  | .r9 => 9
  | .r10 => 10
  | .r11 => 11
  | .r12 => 12

/-- The RES byte of a resolution, in operands and in results (R81, R87). -/
def resByte (r : Res) : Byte := BitVec.ofNat 8 (resBits r)

/-- The RES operand: 0x09 to 0x0C; any other byte is illegal (R81, R85). -/
def resOfByte (b : Byte) : Option Res := [Res.r9, .r10, .r11, .r12].find? fun r => resByte r = b

/-- `P_RES_CODE(r)` (R8, R95). -/
def resCode (c : Config) (r : Res) : BitVec 2 :=
  match r with
  | .r9 => c.code9
  | .r10 => c.code10
  | .r11 => c.code11
  | .r12 => c.code12

/-- `P_RES_CODE^-1`. Total under Config.wf (R8: a bijection); `none` only for parameters R8 forbids (log entry 12). -/
def resOfCode (c : Config) (code : BitVec 2) : Option Res :=
  [Res.r9, .r10, .r11, .r12].find? fun r => resCode c r = code

/-! ## Addresses (R51, R52) -/

/-- `family_ok(a) = (a[0] = P_FAMILY_CODE)` (R52). -/
def familyOk (c : Config) (a : Addr) : Bool := a.a0 == c.familyCode

/-- The 8 bytes of an address, `a[0]` first (R81). -/
def addrBytes (a : Addr) : List Byte := [a.a0, a.a1, a.a2, a.a3, a.a4, a.a5, a.a6, a.a7]

/-! ## Alarm operands (R93, R201) -/

/-- The signed 8-bit range check of SET_CONFIG (R201, R211). -/
def inAlarmRange (v : Word16) : Bool := decide (-128 ≤ v.toInt) && decide (v.toInt ≤ 127)

/-! ## Scratchpad fields (R91, R140) -/

/-- The 9 bytes, byte 0 first. -/
def rawBytes (raw : Raw9) : List Byte :=
  [raw.b0, raw.b1, raw.b2, raw.b3, raw.b4, raw.b5, raw.b6, raw.b7, raw.b8]

/-- Bytes 0 to 7, the CRC's input (R91). -/
def rawData (raw : Raw9) : List Byte :=
  [raw.b0, raw.b1, raw.b2, raw.b3, raw.b4, raw.b5, raw.b6, raw.b7]

/-- `T = {raw[1], raw[0]}` (R140). -/
def rawTemp (raw : Raw9) : Word16 := word16 raw.b0 raw.b1

/-- `TH = raw[2]` (R140). -/
def rawTh (raw : Raw9) : Byte := raw.b2

/-- `TL = raw[3]` (R140). -/
def rawTl (raw : Raw9) : Byte := raw.b3

/-- `CFG = raw[4]` (R140). -/
def rawCfg (raw : Raw9) : Byte := raw.b4

/-- `CRC = raw[8]` (R140). -/
def rawCrc (raw : Raw9) : Byte := raw.b8

/-- `sint_8(b)`: the whole degrees an alarm byte holds, −128 to 127 (R93, R96). `trunc8` encodes it. -/
def alarmDegrees (b : Byte) : Int := b.toInt

/-- The high-alarm threshold `sint_8(sp[2])`, in whole degrees (R91, R96). -/
def rawThDegrees (raw : Raw9) : Int := alarmDegrees (rawTh raw)

/-- The low-alarm threshold `sint_8(sp[3])`, in whole degrees (R91, R96). -/
def rawTlDegrees (raw : Raw9) : Int := alarmDegrees (rawTl raw)

/-- The resolution in a scratchpad, `P_RES_CODE^-1(sp[4][6:5])` (R96). -/
def rawRes (c : Config) (raw : Raw9) : Option Res := resOfCode c ((rawCfg raw).extractLsb' 5 2)

end Sys2Proof.Machine
end

