-- ==== Sys2Proof/Decode.lean ====
section
/-! DEFINITION. The request frames (30_encoding.md R80 to R85): the opcode map, the decoder, total on any bytes and
rejecting by name, and after it the encoder. -/

namespace Sys2Proof

open Sys2Proof.Machine (word16 loByte hiByte resByte resOfByte addrBytes rawBytes)

/-- The nine frame formats (R82). -/
inductive Format where
  | F0
  | FA
  | FS
  | FR
  | FB
  | F9
  | FT
  | FW
  | FC
  deriving DecidableEq, Repr

/-- The operations of the opcode map (R83). -/
inductive Opcode where
  | crcCompute
  | crcVerify
  | spDecode
  | spEncodeConfig
  | sensorData
  | tempConvert
  | convTime
  | regBits
  | fromRegBits
  | checkAddress
  | startConvAddr
  | startConvAll
  | readScratchpad
  | writeScratchpad
  | copyScratchpad
  | recallEeprom
  | readPower
  | readData
  | setConfig
  deriving DecidableEq, Repr

/-- One row of the opcode map: OP and the format (R83). -/
structure OpRow where
  op  : Byte
  fmt : Format
  deriving DecidableEq, Repr

/-- The opcode map R83. -/
def opcodeRow (o : Opcode) : OpRow :=
  match o with
  | .crcCompute => ⟨0x01, .FS⟩
  | .crcVerify => ⟨0x02, .FS⟩
  | .spDecode => ⟨0x10, .F9⟩
  | .spEncodeConfig => ⟨0x11, .FR⟩
  | .sensorData => ⟨0x12, .F9⟩
  | .tempConvert => ⟨0x20, .FT⟩
  | .convTime => ⟨0x30, .FR⟩
  | .regBits => ⟨0x31, .FR⟩
  | .fromRegBits => ⟨0x32, .FB⟩
  | .checkAddress => ⟨0x40, .FA⟩
  | .startConvAddr => ⟨0x80, .FA⟩
  | .startConvAll => ⟨0x81, .F0⟩
  | .readScratchpad => ⟨0x82, .FA⟩
  | .writeScratchpad => ⟨0x83, .FW⟩
  | .copyScratchpad => ⟨0x84, .FA⟩
  | .recallEeprom => ⟨0x85, .FA⟩
  | .readPower => ⟨0x86, .FA⟩
  | .readData => ⟨0x90, .FA⟩
  | .setConfig => ⟨0x91, .FC⟩

/-- Every operation of the opcode map. -/
def allOpcodes : List Opcode :=
  [.crcCompute, .crcVerify, .spDecode, .spEncodeConfig, .sensorData, .tempConvert, .convTime, .regBits, .fromRegBits,
   .checkAddress, .startConvAddr, .startConvAll, .readScratchpad, .writeScratchpad, .copyScratchpad, .recallEeprom,
   .readPower, .readData, .setConfig]

/-- The operation an OP byte selects; `none` where R83 assigns it to no operation. -/
def opcodeOfByte (b : Byte) : Option Opcode := allOpcodes.find? fun o => (opcodeRow o).op = b

/-- The length of a frame of a format; `n` is the length byte of format FS (R82, R84). -/
def formatLength (fmt : Format) (n : Nat) : Nat :=
  match fmt with
  | .F0 => 1
  | .FA => 9
  | .FS => 2 + n
  | .FR => 2
  | .FB => 2
  | .F9 => 10
  | .FT => 4
  | .FW => 12
  | .FC => 14

/-- Why a frame spells no request; each is the verdict IllegalRequest (R85, R266). -/
inductive Reject where
  /-- An empty frame. -/
  | emptyFrame
  /-- An OP that R83 assigns to no operation. -/
  | unassignedOpcode (op : Byte)
  /-- A length that is not the format's. -/
  | wrongLength
  /-- An FS length byte above `P_SEQ_MAX`. -/
  | seqTooLong (n : Byte)
  /-- A RES operand outside 0x09 to 0x0C. -/
  | badResolution (b : Byte)
  deriving DecidableEq, Repr

/-- Format FS after OP: the length byte and exactly that many bytes (R85). -/
def fieldSeq (c : Config) (f : List Byte) : Except Reject (List Byte) :=
  match f with
  | [] => .error .wrongLength
  | n :: bytes =>
    if c.seqMax < n then .error (.seqTooLong n)
    else if bytes.length = n.toNat then .ok bytes
    else .error .wrongLength

/-- Format F9 after OP (R82). -/
def fieldRaw9 (f : List Byte) : Except Reject Raw9 :=
  match f with
  | [b0, b1, b2, b3, b4, b5, b6, b7, b8] => .ok ⟨b0, b1, b2, b3, b4, b5, b6, b7, b8⟩
  | _ => .error .wrongLength

/-- A RES operand (R81). -/
def fieldRes (b : Byte) : Except Reject Res :=
  match resOfByte b with
  | some r => .ok r
  | none => .error (.badResolution b)

/-- Format FR after OP (R82). -/
def fieldFR (f : List Byte) : Except Reject Res :=
  match f with
  | [b] => fieldRes b
  | _ => .error .wrongLength

/-- Format FB after OP (R82). -/
def fieldFB (f : List Byte) : Except Reject Byte :=
  match f with
  | [b] => .ok b
  | _ => .error .wrongLength

/-- Format F0 after OP (R82). -/
def fieldF0 (f : List Byte) : Except Reject Unit :=
  match f with
  | [] => .ok ()
  | _ => .error .wrongLength

/-- Format FT after OP: RAW16 low byte first, then RES (R82). -/
def fieldFT (f : List Byte) : Except Reject (Word16 × Res) :=
  match f with
  | [lo, hi, b] => (fieldRes b).map fun r => (word16 lo hi, r)
  | _ => .error .wrongLength

/-- Format FA after OP (R82). -/
def fieldFA (f : List Byte) : Except Reject Addr :=
  match f with
  | [a0, a1, a2, a3, a4, a5, a6, a7] => .ok ⟨a0, a1, a2, a3, a4, a5, a6, a7⟩
  | _ => .error .wrongLength

/-- Format FW after OP: ADDR, TH, TL, CFG (R82). -/
def fieldFW (f : List Byte) : Except Reject (Addr × Byte × Byte × Byte) :=
  match f with
  | [a0, a1, a2, a3, a4, a5, a6, a7, th, tl, cfg] => .ok (⟨a0, a1, a2, a3, a4, a5, a6, a7⟩, th, tl, cfg)
  | _ => .error .wrongLength

/-- Format FC after OP: ADDR, ALOW, AHIGH, RES (R82). -/
def fieldFC (f : List Byte) : Except Reject (Addr × Word16 × Word16 × Res) :=
  match f with
  | [a0, a1, a2, a3, a4, a5, a6, a7, l0, l1, h0, h1, b] =>
    (fieldRes b).map fun r => (⟨a0, a1, a2, a3, a4, a5, a6, a7⟩, word16 l0 l1, word16 h0 h1, r)
  | _ => .error .wrongLength

/-- The operand fields of an operation's frame after OP (R82, R85). -/
def decodeFields (c : Config) (o : Opcode) (f : List Byte) : Except Reject Instr :=
  match o with
  | .crcCompute => (fieldSeq c f).map .crcCompute
  | .crcVerify => (fieldSeq c f).map .crcVerify
  | .spDecode => (fieldRaw9 f).map .spDecode
  | .spEncodeConfig => (fieldFR f).map .spEncodeConfig
  | .sensorData => (fieldRaw9 f).map .sensorData
  | .tempConvert => (fieldFT f).map fun x => .tempConvert x.1 x.2
  | .convTime => (fieldFR f).map .convTime
  | .regBits => (fieldFR f).map .regBits
  | .fromRegBits => (fieldFB f).map .fromRegBits
  | .checkAddress => (fieldFA f).map .checkAddress
  | .startConvAddr => (fieldFA f).map .startConvAddr
  | .startConvAll => (fieldF0 f).map fun _ => .startConvAll
  | .readScratchpad => (fieldFA f).map .readScratchpad
  | .writeScratchpad => (fieldFW f).map fun x => .writeScratchpad x.1 x.2.1 x.2.2.1 x.2.2.2
  | .copyScratchpad => (fieldFA f).map .copyScratchpad
  | .recallEeprom => (fieldFA f).map .recallEeprom
  | .readPower => (fieldFA f).map .readPower
  | .readData => (fieldFA f).map .readData
  | .setConfig => (fieldFC f).map fun x => .setConfig x.1 x.2.1 x.2.2.1 x.2.2.2

/-- `decode_frame` (R85): total; an error is the verdict IllegalRequest. -/
def decodeFrame (c : Config) (f : List Byte) : Except Reject Instr :=
  match f with
  | [] => .error .emptyFrame
  | op :: rest =>
    match opcodeOfByte op with
    | none => .error (.unassignedOpcode op)
    | some o => decodeFields c o rest

/-! ## The opcode table's numbering of a word (LAWS.json's host interface) -/

/-- Byte `k` of a word of `nbits` bits whose bit 0 is bit 0 of the first byte; 0 above `nbits`. -/
def tableByte (nbits w k : Nat) : Byte := if 8 * k < nbits then BitVec.ofNat 8 (w / 2 ^ (8 * k)) else 0

/-- The frame of a table word: its bytes, and zero bytes up to the length its OP gives (R84; log entry 13). -/
def tableFrame (nbits w : Nat) : List Byte :=
  let given := (nbits + 7) / 8
  let len :=
    match opcodeOfByte (tableByte nbits w 0) with
    | none => given
    | some o => max given (formatLength (opcodeRow o).fmt (tableByte nbits w 1).toNat)
  (List.range len).map (tableByte nbits w)

/-- What the decoder reads from a table word, under the default parameters. -/
def decodeTableWord (nbits w : Nat) : Option Instr :=
  match decodeFrame Config.default (tableFrame nbits w) with
  | .ok i => some i
  | .error _ => none

/-! ## The encoder -/

/-- The operation of a request. -/
def opcodeOf (i : Instr) : Opcode :=
  match i with
  | .crcCompute _ => .crcCompute
  | .crcVerify _ => .crcVerify
  | .spDecode _ => .spDecode
  | .spEncodeConfig _ => .spEncodeConfig
  | .sensorData _ => .sensorData
  | .tempConvert _ _ => .tempConvert
  | .convTime _ => .convTime
  | .regBits _ => .regBits
  | .fromRegBits _ => .fromRegBits
  | .checkAddress _ => .checkAddress
  | .startConvAddr _ => .startConvAddr
  | .startConvAll => .startConvAll
  | .readScratchpad _ => .readScratchpad
  | .writeScratchpad _ _ _ _ => .writeScratchpad
  | .copyScratchpad _ => .copyScratchpad
  | .recallEeprom _ => .recallEeprom
  | .readPower _ => .readPower
  | .readData _ => .readData
  | .setConfig _ _ _ _ => .setConfig

/-- A SEQ operand: its length byte and its bytes (R81). -/
def seqField (bytes : List Byte) : List Byte := BitVec.ofNat 8 bytes.length :: bytes

/-- The operand fields of a request's frame (R81, R82). -/
def operandBytes (i : Instr) : List Byte :=
  match i with
  | .crcCompute bytes => seqField bytes
  | .crcVerify bytes => seqField bytes
  | .spDecode raw => rawBytes raw
  | .spEncodeConfig r => [resByte r]
  | .sensorData raw => rawBytes raw
  | .tempConvert t r => [loByte t, hiByte t, resByte r]
  | .convTime r => [resByte r]
  | .regBits r => [resByte r]
  | .fromRegBits b => [b]
  | .checkAddress a => addrBytes a
  | .startConvAddr a => addrBytes a
  | .startConvAll => []
  | .readScratchpad a => addrBytes a
  | .writeScratchpad a th tl cfg => addrBytes a ++ [th, tl, cfg]
  | .copyScratchpad a => addrBytes a
  | .recallEeprom a => addrBytes a
  | .readPower a => addrBytes a
  | .readData a => addrBytes a
  | .setConfig a lo hi r => addrBytes a ++ [loByte lo, hiByte lo, loByte hi, hiByte hi, resByte r]

/-- The frame of a request: OP, then its operand fields (R80, R82, R83). -/
def encode (i : Instr) : List Byte := (opcodeRow (opcodeOf i)).op :: operandBytes i

end Sys2Proof
end

