-- ==== Sys2Proof/Machine/State.lean ====
section
/-! DEFINITION. The state of the core and of its ports (10_state.md), its fault and refusal reasons, and its reset
state (R38, R290). -/

namespace Sys2Proof.Machine

/-- `st` (R24). -/
inductive SeqState where
  | idle
  | busy
  deriving DecidableEq, Repr

/-- The error kinds (R88, R261 to R266). -/
inductive ErrorKind where
  | busError
  | checksumError
  | malformedConfigError
  | wrongFamilyError
  | outOfRangeError
  | illegalRequest
  deriving DecidableEq, Repr

/-- What `resp_status` holds: one of seven statuses (R30, R88). -/
inductive Status where
  | ok
  | error (e : ErrorKind)
  deriving DecidableEq, Repr

/-- A presence pulse: what `Bus.reset()` answers when it answers no `Err` (R11, R22). -/
inductive Presence where
  | present
  | absent
  deriving DecidableEq, Repr

/-- A primitive's answer: a value, or `Err` (R11, R71). -/
inductive Answer (α : Type) where
  | ok (v : α)
  | err
  deriving DecidableEq, Repr

/-- The primitives the core can issue on the transport port and the timing port (R11, R22, R23). -/
inductive Prim where
  | reset
  | select (a : Addr)
  | skip
  | writeByte (b : Byte)
  | readByte
  | readBit
  | delayMs (n : Word16)
  | delayUs (n : Word16)
  deriving DecidableEq, Repr

/-- The events of a trace: a primitive with its answer (R70). -/
inductive Event where
  | reset (x : Answer Presence)
  | select (a : Addr) (x : Answer Unit)
  | skip (x : Answer Unit)
  | write (b : Byte) (x : Answer Unit)
  | read (x : Answer Byte)
  | readBit (x : Answer (BitVec 1))
  | delayMs (n : Word16)
  | delayUs (n : Word16)
  deriving DecidableEq, Repr

/-- The transport port's input: the answers the transport has ready, in order, for each answer type of R71. They are
the oracle's draws; a primitive whose queue is empty is unanswered (log entry 3). -/
structure Transport where
  resets : List (Answer Presence)
  acks   : List (Answer Unit)
  bytes  : List (Answer Byte)
  bits   : List (Answer (BitVec 1))
  deriving DecidableEq, Repr

/-- The timing port: the delay ends the timing primitive has ready, each with the microseconds it takes beyond the
requested time, and the microseconds spent in delays so far (R23; log entry 4). -/
structure Timer where
  ends     : List Nat
  waitedUs : Nat
  deriving DecidableEq, Repr

/-- The core (R24 to R31), its ports' inputs, its parameters, and the model's own observation and counter.
`req`, `rx[i]`, `respStatus` and `respValue` are `none` where the spec says they hold no value (R25, R27, R29 to
R31, R290); that is the spec's own state (log entry 8). -/
structure State where
  /-- The parameters, which no step writes (R8, R35; log entry 1). -/
  cfg        : Config
  /-- `st` (R24). -/
  st         : SeqState
  /-- `req` (R25). -/
  req        : Option Instr
  /-- `step` (R26). -/
  step       : Nat
  /-- `rx[0..8]` (R27). -/
  rx         : Vector (Option Byte) 9
  /-- `crc` (R28). -/
  crc        : Byte
  /-- `resp_valid` (R29). -/
  respValid  : Bool
  /-- `resp_status` (R30). -/
  respStatus : Option Status
  /-- `resp_value` (R31). -/
  respValue  : Option (List Byte)
  /-- The reset input `rst` (R290). -/
  rst        : Bool
  /-- The frames the host holds to offer on the host port, the first one on the port (R21). -/
  frames     : List (List Byte)
  /-- The transport port's input (R22, R71). -/
  bus        : Transport
  /-- The timing port (R23). -/
  timer      : Timer
  /-- The model's observation: the events issued and answered so far, oldest first (R64, R70; log entry 5). -/
  trace      : List Event
  /-- The model's counter of unspecified `crc` values drawn (R28; log entry 7). -/
  freeCtr    : Nat
  deriving DecidableEq, Repr

/-- Reads the spec makes a fault of the model (93_implementation_defined.md U16, U17). -/
inductive Fault where
  /-- `req` read while it holds no value (R25). Raised by Machine.step in a BUSY state with no request, which no run
  reaches. Safe: the model stops. -/
  | reqUnspecified
  /-- An unwritten `rx[i]` read (R27). Raised by the completion of READ_SCRATCHPAD and READ_DATA in states no run
  reaches. Safe: the model stops. -/
  | rxUnwritten
  /-- READ_POWER past its last step without the bit it read. Raised by its completion in states no run reaches (log
  entry 15). Safe: the model stops. -/
  | bitUnwritten
  /-- `resp_status` or `resp_value` read while it holds no value (R29 to R31). Raised by the host-port reads, never by
  a step. Safe: the read gives nothing. -/
  | respNoValue
  deriving DecidableEq, Repr

/-- Why an instruction has no meaning in the model. -/
inductive Refusal where
  /-- Raised by Machine.exec for a request whose meaning is not written yet; no arm does so. Safe. -/
  | notModelled (mnemonic : String)
  deriving DecidableEq, Repr

/-- Every `rx[i]` unwritten (R27). -/
def rxEmpty : Vector (Option Byte) 9 := Vector.replicate 9 none

/-- The machine right after reset (R38, R290). The spec gives the registers' values but for `crc` (DESIGN CHOICE 0,
log entry 6); the parameters are the defaults of R8; the ports' inputs are empty (log entries 3, 4, 10, 11). -/
def State.reset : State where
  cfg        := Config.default
  st         := .idle
  req        := none
  step       := 0
  rx         := rxEmpty
  crc        := 0x00
  respValid  := false
  respStatus := none
  respValue  := none
  rst        := false
  frames     := []
  bus        := ⟨[], [], [], []⟩
  timer      := ⟨[], 0⟩
  trace      := []
  freeCtr    := 0

end Sys2Proof.Machine
end

