-- ==== Sys2Proof/Machine/Flags.lean ====
section
/-! DEFINITION. The status register's values. The core has no condition codes or flags beyond `resp_valid` and
`resp_status` (10_state.md R32): their codes (R88), which request can end in which (R267), and the priority (R268). -/

namespace Sys2Proof.Machine

/-- The code of an error kind (R88). -/
def errorCode (e : ErrorKind) : Byte :=
  match e with
  | .busError => 0x01
  | .checksumError => 0x02
  | .malformedConfigError => 0x03
  | .wrongFamilyError => 0x04
  | .outOfRangeError => 0x05
  | .illegalRequest => 0x06

/-- The status byte (R30, R88). -/
def statusCode (st : Status) : Byte :=
  match st with
  | .ok => 0x00
  | .error e => errorCode e

/-- The place of an error kind in the priority order R268, first 1. -/
def errorPriority (e : ErrorKind) : Nat :=
  match e with
  | .illegalRequest => 1
  | .wrongFamilyError => 2
  | .outOfRangeError => 3
  | .busError => 4
  | .checksumError => 5
  | .malformedConfigError => 6

/-- The error kinds each decoded request can end in (R267; IllegalRequest is the frame decoder's alone, R266). -/
def possibleErrors (i : Instr) : List ErrorKind :=
  match i with
  | .crcCompute _ => []
  | .crcVerify _ => []
  | .spDecode _ => [.checksumError, .malformedConfigError]
  | .spEncodeConfig _ => []
  | .sensorData _ => [.checksumError, .malformedConfigError]
  | .tempConvert _ _ => []
  | .convTime _ => []
  | .regBits _ => []
  | .fromRegBits _ => [.malformedConfigError]
  | .checkAddress _ => [.wrongFamilyError]
  | .startConvAddr _ => [.busError, .wrongFamilyError]
  | .startConvAll => [.busError]
  | .readScratchpad _ => [.busError, .checksumError, .malformedConfigError, .wrongFamilyError]
  | .writeScratchpad _ _ _ _ => [.busError, .wrongFamilyError]
  | .copyScratchpad _ => [.busError, .wrongFamilyError]
  | .recallEeprom _ => [.busError, .wrongFamilyError]
  | .readPower _ => [.busError, .wrongFamilyError]
  | .readData _ => [.busError, .checksumError, .malformedConfigError, .wrongFamilyError]
  | .setConfig _ _ _ _ => [.busError, .wrongFamilyError, .outOfRangeError]

end Sys2Proof.Machine
end

