-- ==== Sys2Proof/Machine/Ops.lean ====
section
/-! DEFINITION. The named operations over the core's registers and ports: accepting a request, issuing a primitive,
running a row of the sequence table, completing with a result, completing with an error (the core's exception, R269),
reset, and the host-port reads. -/

namespace Sys2Proof.Machine

/-- What a meaning answers. -/
abbrev Result := Host.Outcome State Fault Refusal

/-! ## Acceptance (R21, R24 to R27, R29) -/

/-- `req_ready = (st = IDLE)` (R21). -/
def State.reqReady (s : State) : Bool := decide (s.st = .idle)

/-- Accepting a decoded request: BUSY, `req` latched, `step` 0, every `rx[i]` unwritten, the response registers
cleared (R24 to R27, R29). -/
def State.accept (i : Instr) (s : State) : State :=
  { s with
    st := .busy, req := some i, step := 0, rx := rxEmpty,
    respValid := false, respStatus := none, respValue := none }

/-! ## Completion (R24 to R26, R29 to R31) -/

/-- `respond v`: completion with status OK and result bytes `v` (R11, R24, R26, R29 to R31). -/
def State.respond (v : List Byte) (s : State) : State :=
  { s with
    st := .idle, req := none, step := 0,
    respValid := true, respStatus := some .ok, respValue := some v }

/-- `raise E`: TAKING AN EXCEPTION, the error completion of R269. The status register takes the kind, the value
register holds no value, `step` is 0 and control returns to the host port (IDLE). There is no return from it to
model: the next request starts from IDLE as after a success (R270). -/
def State.raise (e : ErrorKind) (s : State) : State :=
  { s with
    st := .idle, req := none, step := 0,
    respValid := true, respStatus := some (.error e), respValue := none }

/-- A taken frame that spells no request completes at once with IllegalRequest (R85, R266). DEDUCED: taking it is an
acceptance, so every `rx[i]` is unwritten (R27; log entry 9). -/
def State.rejectFrame (s : State) : State := State.raise .illegalRequest { s with rx := rxEmpty }

/-- Every request runs through `enter`: from IDLE it is accepted and its operation starts; while BUSY with the same
request the operation goes on at `step`; a request offered while another is running is not taken (R21; log
entry 16). -/
def enter (i : Instr) (s : State) (operation : State → Result) : Result :=
  match s.st with
  | .idle => operation (s.accept i)
  | .busy => if s.req = some i then operation s else .next s

/-- A completion with status OK whose result does not depend on the state. -/
def complete (v : List Byte) (s : State) : Result := .next (s.respond v)

/-- `if not family_ok(a): raise WrongFamilyError` (R201). -/
def requireFamily (a : Addr) (s : State) (operation : State → Result) : Result :=
  if familyOk s.cfg a then operation s else .next (s.raise .wrongFamilyError)

/-- SET_CONFIG's range check: `raise OutOfRangeError` unless both alarms are in −128..127 (R201). -/
def requireAlarmRange (lo hi : Word16) (s : State) (operation : State → Result) : Result :=
  if inAlarmRange lo && inAlarmRange hi then operation s else .next (s.raise .outOfRangeError)

/-! ## Issuing one primitive (R11, R203, R204, R217) -/

/-- A step of a row of the sequence table R217. -/
inductive SeqStep where
  | reset
  | select (a : Addr)
  | skip
  | write (b : Byte)
  | readInto (i : Fin 9)
  | readBit
  | pollBit
  | delayMs (n : Word16)
  deriving DecidableEq, Repr

/-- The primitive a step issues (R217). -/
def stepPrim (p : SeqStep) : Prim :=
  match p with
  | .reset => .reset
  | .select a => .select a
  | .skip => .skip
  | .write b => .writeByte b
  | .readInto _ => .readByte
  | .readBit => .readBit
  | .pollBit => .readBit
  | .delayMs n => .delayMs n

/-- What issuing a primitive comes to: it is still unanswered and the core is blocked (R11, R64); it failed (R217); or
it was answered, with the bit it read if it reads one. -/
inductive Issued where
  | waiting
  | failed (s : State)
  | answered (bit : Option (BitVec 1)) (s : State)
  deriving DecidableEq, Repr

/-- A primitive's event goes to the end of the trace (R70). -/
def State.record (e : Event) (s : State) : State := { s with trace := s.trace ++ [e] }

/-- `step <- step + 1` when a primitive's answer is taken (R26). -/
def State.advance (s : State) : State := { s with step := s.step + 1 }

/-- `rx[i] <- b` (R27). -/
def State.writeRx (i : Fin 9) (b : Byte) (s : State) : State := { s with rx := s.rx.set i (some b) }

/-- Taking the first pending answer of `Bus.reset()`. -/
def State.setResets (q : List (Answer Presence)) (s : State) : State := { s with bus := { s.bus with resets := q } }

/-- Taking the first pending answer of `Bus.select`, `Bus.skip` or `Bus.write_byte`. -/
def State.setAcks (q : List (Answer Unit)) (s : State) : State := { s with bus := { s.bus with acks := q } }

/-- Taking the first pending answer of `Bus.read_byte()`. -/
def State.setBytes (q : List (Answer Byte)) (s : State) : State := { s with bus := { s.bus with bytes := q } }

/-- Taking the first pending answer of `Bus.read_bit()`. -/
def State.setBits (q : List (Answer (BitVec 1))) (s : State) : State := { s with bus := { s.bus with bits := q } }

/-- A delay of `n` milliseconds that the timing primitive ends `extra` microseconds late (R23). -/
def State.endDelay (n : Word16) (extra : Nat) (q : List Nat) (s : State) : State :=
  { s with timer := { ends := q, waitedUs := s.timer.waitedUs + (1000 * n.toNat + extra) } }

/-- `Bus.reset()`: only `Present` lets the sequence go on (R202, R217). -/
def issueReset (s : State) : Issued :=
  match s.bus.resets with
  | [] => .waiting
  | .ok .present :: q => .answered none ((s.setResets q).record (.reset (.ok .present))).advance
  | .ok .absent :: q => .failed ((s.setResets q).record (.reset (.ok .absent)))
  | .err :: q => .failed ((s.setResets q).record (.reset .err))

/-- `Bus.select(a)`, `Bus.skip()` and `Bus.write_byte(b)`, which answer `Ok` or `Err` (R22, R203). -/
def issueAck (event : Answer Unit → Event) (s : State) : Issued :=
  match s.bus.acks with
  | [] => .waiting
  | .ok () :: q => .answered none ((s.setAcks q).record (event (.ok ()))).advance
  | .err :: q => .failed ((s.setAcks q).record (event .err))

/-- `rx[i] <- rd()` (R203, R208). -/
def issueRead (i : Fin 9) (s : State) : Issued :=
  match s.bus.bytes with
  | [] => .waiting
  | .ok b :: q => .answered none (((s.setBytes q).record (.read (.ok b))).writeRx i b).advance
  | .err :: q => .failed ((s.setBytes q).record (.read .err))

/-- `rdbit()` (R203). -/
def issueReadBit (s : State) : Issued :=
  match s.bus.bits with
  | [] => .waiting
  | .ok b :: q => .answered (some b) ((s.setBits q).record (.readBit (.ok b))).advance
  | .err :: q => .failed ((s.setBits q).record (.readBit .err))

/-- `Delay.ms(n)`: it cannot fail, and it blocks until the timing primitive ends it (R11, R23). -/
def issueDelay (n : Word16) (s : State) : Issued :=
  match s.timer.ends with
  | [] => .waiting
  | extra :: q => .answered none ((s.endDelay n extra q).record (.delayMs n)).advance

/-- Issuing one step of a row and taking its answer. -/
def issue (p : SeqStep) (s : State) : Issued :=
  match p with
  | .reset => issueReset s
  | .select a => issueAck (.select a) s
  | .skip => issueAck .skip s
  | .write b => issueAck (.write b) s
  | .readInto i => issueRead i s
  | .readBit => issueReadBit s
  | .pollBit => issueReadBit s
  | .delayMs n => issueDelay n s

/-! ## Running a row (R64, R200, R204, R217) -/

/-- Whether a step ends the row early: a poll that answers 1 (R213: `until b = 1`). -/
def endsRow (p : SeqStep) (bit : Option (BitVec 1)) : Bool := p == .pollBit && bit == some 1

/-- The bus phase from the given remaining steps: each primitive is issued after the one before it is answered; a
failure raises BusError and issues nothing more; an unanswered primitive blocks the core; at the end of the row
the completion runs on the bit the last step read, if it read one (R200, R203, R217). -/
def runSteps (completion : Option (BitVec 1) → State → Result) :
    List SeqStep → Option (BitVec 1) → State → Result
  | [], last, s => completion last s
  | p :: rest, _, s =>
    match issue p s with
    | .waiting => .next s
    | .failed s' => .next (s'.raise .busError)
    | .answered bit s' => if endsRow p bit then completion bit s' else runSteps completion rest bit s'

/-- The bus phase of a request, from its `step` (R204). -/
def runRow (row : List SeqStep) (completion : Option (BitVec 1) → State → Result) (s : State) : Result :=
  runSteps completion (row.drop s.step) none s

/-! ## The receive buffer (R27) -/

/-- The 9 received bytes; reading an unwritten one faults (R27). -/
def readRx (s : State) : Except Fault Raw9 :=
  match s.rx.toList with
  | [some b0, some b1, some b2, some b3, some b4, some b5, some b6, some b7, some b8] =>
    .ok ⟨b0, b1, b2, b3, b4, b5, b6, b7, b8⟩
  | _ => .error .rxUnwritten

/-! ## Reset (R290, R291) -/

/-- Taking `rst`: every register of the core at its reset value; a running request is abandoned with no response. The
ports' inputs and the observation are the environment's and stay (log entry 10). -/
def State.takeReset (s : State) : State :=
  { s with
    st := .idle, req := none, step := 0, rx := rxEmpty, crc := State.reset.crc,
    respValid := false, respStatus := none, respValue := none, rst := false }

/-! ## Host-port reads (R29 to R31, R86) -/

/-- The host reads `resp_status` (R30); it faults while it holds no value (R29). -/
def State.readStatus (s : State) : Except Fault Byte :=
  match s.respStatus with
  | some st => .ok (statusCode st)
  | none => .error .respNoValue

/-- The host reads `resp_value` (R31); it faults while it holds no value. -/
def State.readValue (s : State) : Except Fault (List Byte) :=
  match s.respValue with
  | some v => .ok v
  | none => .error .respNoValue

/-- The response frame: `resp_status` followed by `resp_value`, which is empty on an error (R86). -/
def State.responseFrame (s : State) : Except Fault (List Byte) :=
  match s.respStatus with
  | some .ok => s.readValue.map fun v => statusCode .ok :: v
  | some (.error e) => .ok [errorCode e]
  | none => .error .respNoValue

end Sys2Proof.Machine
end

