-- ==== Sys2Proof/Machine/Crc.lean ====
section
/-! DEFINITION. The CRC-8 checker (40_crc8.md): the update function, the accumulator register, CRC_COMPUTE and
CRC_VERIFY. -/

namespace Sys2Proof.Machine

/-- One bit of R121: feed `inbit`, shift right, and XOR with 0x8C on feedback 1. -/
def crc8Bit (c : Byte) (inbit : Bool) : Byte :=
  if (c.getLsbD 0 ^^ inbit) then (c >>> 1) ^^^ 0x8C else c >>> 1

/-- `crc8_byte(c, b)` (R121): the bits of `b`, least significant first. -/
def crc8Byte (c b : Byte) : Byte :=
  (List.range 8).foldl (fun acc k => crc8Bit acc (b.getLsbD k)) c

/-- `crc8(s)` (R122). -/
def crc8 (bytes : List Byte) : Byte := bytes.foldl crc8Byte 0x00

/-- The register at the start of a computation (R28). -/
def State.crcStart (s : State) : State := { s with crc := 0x00 }

/-- The register after a byte is consumed (R28). -/
def State.crcFeed (s : State) (b : Byte) : State := { s with crc := crc8Byte s.crc b }

/-- The register after it is read at the end of a computation: unspecified, a free value (R28; log entry 7). -/
def State.crcRelease (s : State) : State :=
  { s with crc := Config.unspecifiedCrc s.freeCtr, freeCtr := s.freeCtr + 1 }

/-- One CRC computation on the register: start, feed every byte, read, release (R28, R122). -/
def computeCrc (bytes : List Byte) (s : State) : Byte × State :=
  let fed := bytes.foldl State.crcFeed s.crcStart
  (fed.crc, fed.crcRelease)

/-- CRC_COMPUTE (R123). -/
def execCrcCompute (bytes : List Byte) (s : State) : Result :=
  enter (.crcCompute bytes) s fun s =>
    let (v, s) := computeCrc bytes s
    complete [v] s

/-- CRC_VERIFY (R124): false for no bytes; else whether the CRC of all but the last byte is the last byte. -/
def execCrcVerify (bytes : List Byte) (s : State) : Result :=
  enter (.crcVerify bytes) s fun s =>
    match bytes.getLast? with
    | none => complete [boolByte false] s
    | some last =>
      let (v, s) := computeCrc bytes.dropLast s
      complete [boolByte (v == last)] s

end Sys2Proof.Machine
end

