-- ==== Sys2Proof/Machine/Temperature.lean ====
section
/-! DEFINITION. The temperature fixed-point converter (42_temperature.md): the mask and TEMP_CONVERT. -/

namespace Sys2Proof.Machine

/-- `mask(r) = trunc_16(0xFFFF << (12 - bits(r)))` (R160). -/
def tempMask (r : Res) : Word16 := 0xFFFF <<< (12 - resBits r)

/-- `mask_temp(T, r)` (R160). -/
def maskTemp (t : Word16) (r : Res) : Word16 := t &&& tempMask r

/-- `temp(M) = sint_16(M) / 16` °C, an exact rational (R162). -/
def celsius (m : Word16) : Rat := mkRat m.toInt 16

/-- TEMP_CONVERT (R161). -/
def execTempConvert (t : Word16) (r : Res) (s : State) : Result :=
  enter (.tempConvert t r) s (complete (le16 (maskTemp t r)))

end Sys2Proof.Machine
end

