-- ==== Sys2Proof/Machine/Codec.lean ====
section
/-! DEFINITION. The scratchpad codec (41_scratchpad_codec.md): configuration byte, the shared decode, SP_DECODE,
SP_ENCODE_CONFIG and SENSOR_DATA. -/

namespace Sys2Proof.Machine

/-- `cfg_decode(c)` (R141); `none` is MalformedConfigError. -/
def cfgDecode (c : Config) (b : Byte) : Option Res :=
  if c.cfgStrict && (b &&& c.cfgReservedMask) != (c.cfgReservedValue &&& c.cfgReservedMask) then none
  else resOfCode c (b.extractLsb' 5 2)

/-- `encode_config(r)` (R143). -/
def encodeConfig (c : Config) (r : Res) : Byte := ((resCode c r).setWidth 8 <<< 5) ||| c.cfgReservedValue

/-- The record SP_DECODE and READ_SCRATCHPAD answer: raw word, TH, TL, RES, CRC (R87, R142). -/
def scratchpadRecord (raw : Raw9) (r : Res) : List Byte :=
  le16 (rawTemp raw) ++ [rawTh raw, rawTl raw, resByte r, rawCrc raw]

/-- The record SENSOR_DATA and READ_DATA answer: masked word, RES, TL, TH (R87, R144). -/
def sensorRecord (raw : Raw9) (r : Res) : List Byte :=
  le16 (maskTemp (rawTemp raw) r) ++ [resByte r, rawTl raw, rawTh raw]

/-- The decode every scratchpad goes through: the CRC test first, then the configuration byte, then the record
(R142, R144 to R146). -/
def decodeScratchpad (record : Raw9 → Res → List Byte) (raw : Raw9) (s : State) : State :=
  let (v, s) := computeCrc (rawData raw) s
  if v = rawCrc raw then
    match cfgDecode s.cfg (rawCfg raw) with
    | some r => s.respond (record raw r)
    | none => s.raise .malformedConfigError
  else s.raise .checksumError

/-- SP_DECODE (R142). -/
def execSpDecode (raw : Raw9) (s : State) : Result :=
  enter (.spDecode raw) s fun s => .next (decodeScratchpad scratchpadRecord raw s)

/-- SP_ENCODE_CONFIG (R143). -/
def execSpEncodeConfig (r : Res) (s : State) : Result :=
  enter (.spEncodeConfig r) s fun s => complete [encodeConfig s.cfg r] s

/-- SENSOR_DATA (R144). -/
def execSensorData (raw : Raw9) (s : State) : Result :=
  enter (.sensorData raw) s fun s => .next (decodeScratchpad sensorRecord raw s)

end Sys2Proof.Machine
end

