-- ==== Sys2Proof/Machine/Resolution.lean ====
section
/-! DEFINITION. The resolution model (43_resolution.md): CONV_TIME, REG_BITS and FROM_REG_BITS. -/

namespace Sys2Proof.Machine

/-- `conversion_time(r)` in microseconds (R181). -/
def conversionTime (r : Res) : Word32 :=
  match r with
  | .r9 => 93750
  | .r10 => 187500
  | .r11 => 375000
  | .r12 => 750000

/-- `register_bits(r)`: the code, right-aligned (R182). -/
def registerBits (c : Config) (r : Res) : Byte := (resCode c r).setWidth 8

/-- `from_register_bits(b)` (R183); `none` is MalformedConfigError. -/
def fromRegisterBits (c : Config) (b : Byte) : Option Res :=
  if 3 < b.toNat then none else resOfCode c (b.extractLsb' 0 2)

/-- CONV_TIME (R181). -/
def execConvTime (r : Res) (s : State) : Result :=
  enter (.convTime r) s (complete (le32 (conversionTime r)))

/-- REG_BITS (R182). -/
def execRegBits (r : Res) (s : State) : Result :=
  enter (.regBits r) s fun s => complete [registerBits s.cfg r] s

/-- FROM_REG_BITS (R183). -/
def execFromRegBits (b : Byte) (s : State) : Result :=
  enter (.fromRegBits b) s fun s =>
    match fromRegisterBits s.cfg b with
    | some r => complete [resByte r] s
    | none => .next (s.raise .malformedConfigError)

end Sys2Proof.Machine
end

