-- ==== Sys2Proof/Machine/Rows.lean ====
section
/-! DEFINITION. The sequence table (44_command_sequencer.md R202, R217), one row per bus request, and the transport
port's output. -/

namespace Sys2Proof.Machine

/-- `open_addressed(a)` (R202). -/
def openAddressed (a : Addr) : List SeqStep := [.reset, .select a]

/-- `open_broadcast()` (R202). -/
def openBroadcast : List SeqStep := [.reset, .skip]

/-- START_CONV_ADDR's row. -/
def rowStartConvAddr (c : Config) (a : Addr) : List SeqStep := openAddressed a ++ [.write c.cmdConvert]

/-- START_CONV_ALL's row. -/
def rowStartConvAll (c : Config) : List SeqStep := openBroadcast ++ [.write c.cmdConvert]

/-- READ_SCRATCHPAD's row, and READ_DATA's ("as READ_SCRATCHPAD"). -/
def rowReadScratchpad (c : Config) (a : Addr) : List SeqStep :=
  openAddressed a ++ [.write c.cmdReadSp, .readInto 0, .readInto 1, .readInto 2, .readInto 3, .readInto 4, .readInto 5,
    .readInto 6, .readInto 7, .readInto 8]

/-- WRITE_SCRATCHPAD's row. -/
def rowWriteScratchpad (c : Config) (a : Addr) (th tl cfg : Byte) : List SeqStep :=
  openAddressed a ++ [.write c.cmdWriteSp, .write th, .write tl, .write cfg]

/-- SET_CONFIG's row: the high alarm goes out first (R211). -/
def rowSetConfig (c : Config) (a : Addr) (lo hi : Word16) (r : Res) : List SeqStep :=
  openAddressed a ++
    [.write c.cmdWriteSp, .write (trunc8 hi.toInt), .write (trunc8 lo.toInt), .write (encodeConfig c r)]

/-- COPY_SCRATCHPAD's row. -/
def rowCopyScratchpad (c : Config) (a : Addr) : List SeqStep :=
  openAddressed a ++ [.write c.cmdCopySp, .delayMs c.eepromWriteDelayMs]

/-- RECALL_EEPROM's row: a fixed wait, or at most `P_RECALL_POLL_LIMIT` polls (R213). -/
def rowRecallEeprom (c : Config) (a : Addr) : List SeqStep :=
  openAddressed a ++ .write c.cmdRecall ::
    if c.recallPoll then List.replicate c.recallPollLimit.toNat .pollBit else [.delayMs c.recallDelayMs]

/-- READ_POWER's row. -/
def rowReadPower (c : Config) (a : Addr) : List SeqStep := openAddressed a ++ [.write c.cmdReadPwr, .readBit]

/-- The sequence table R217; a pure request has no steps. -/
def sequenceRow (c : Config) (i : Instr) : List SeqStep :=
  match i with
  | .crcCompute _ => []
  | .crcVerify _ => []
  | .spDecode _ => []
  | .spEncodeConfig _ => []
  | .sensorData _ => []
  | .tempConvert _ _ => []
  | .convTime _ => []
  | .regBits _ => []
  | .fromRegBits _ => []
  | .checkAddress _ => []
  | .startConvAddr a => rowStartConvAddr c a
  | .startConvAll => rowStartConvAll c
  | .readScratchpad a => rowReadScratchpad c a
  | .writeScratchpad a th tl cfg => rowWriteScratchpad c a th tl cfg
  | .copyScratchpad a => rowCopyScratchpad c a
  | .recallEeprom a => rowRecallEeprom c a
  | .readPower a => rowReadPower c a
  | .readData a => rowReadScratchpad c a
  | .setConfig a lo hi r => rowSetConfig c a lo hi r

/-- The primitive the core is presenting on its transport or timing port, issued and not yet answered: the one `step`
names in the running request's row (R22, R26, R204; log entry 18). -/
def State.portOut (s : State) : Option Prim :=
  match s.st, s.req with
  | .busy, some i => ((sequenceRow s.cfg i)[s.step]?).map stepPrim
  | _, _ => none

end Sys2Proof.Machine
end

