-- ==== Sys2Proof/Machine/Sequencer.lean ====
section
/-! DEFINITION. The command sequencer's requests (44_command_sequencer.md R205 to R214): the checks, the bus phase of
the request's row, the completion (R200). -/

namespace Sys2Proof.Machine

/-- Completion with no result bytes (R87). -/
def completeEmpty (_last : Option (BitVec 1)) (s : State) : Result := complete [] s

/-- Completion of the two scratchpad reads: decode `rx` (R208, R209). -/
def completeRead (record : Raw9 → Res → List Byte) (_last : Option (BitVec 1)) (s : State) : Result :=
  match readRx s with
  | .ok raw => .next (decodeScratchpad record raw s)
  | .error f => .fault f

/-- Completion of RECALL_EEPROM: with polling, BusError unless the last poll answered 1 (R213). -/
def completeRecall (last : Option (BitVec 1)) (s : State) : Result :=
  if s.cfg.recallPoll && last != some 1 then .next (s.raise .busError) else complete [] s

/-- Completion of READ_POWER: the bit read (R214). -/
def completePower (last : Option (BitVec 1)) (s : State) : Result :=
  match last with
  | some p => complete [zextBit p] s
  | none => .fault .bitUnwritten

/-- CHECK_ADDRESS (R205). -/
def execCheckAddress (a : Addr) (s : State) : Result :=
  enter (.checkAddress a) s fun s => requireFamily a s (complete [])

/-- START_CONV_ADDR (R206). -/
def execStartConvAddr (a : Addr) (s : State) : Result :=
  enter (.startConvAddr a) s fun s =>
    requireFamily a s fun s => runRow (rowStartConvAddr s.cfg a) completeEmpty s

/-- START_CONV_ALL (R207). -/
def execStartConvAll (s : State) : Result :=
  enter .startConvAll s fun s => runRow (rowStartConvAll s.cfg) completeEmpty s

/-- READ_SCRATCHPAD (R208). -/
def execReadScratchpad (a : Addr) (s : State) : Result :=
  enter (.readScratchpad a) s fun s =>
    requireFamily a s fun s => runRow (rowReadScratchpad s.cfg a) (completeRead scratchpadRecord) s

/-- READ_DATA (R209). -/
def execReadData (a : Addr) (s : State) : Result :=
  enter (.readData a) s fun s =>
    requireFamily a s fun s => runRow (rowReadScratchpad s.cfg a) (completeRead sensorRecord) s

/-- WRITE_SCRATCHPAD (R210). -/
def execWriteScratchpad (a : Addr) (th tl cfg : Byte) (s : State) : Result :=
  enter (.writeScratchpad a th tl cfg) s fun s =>
    requireFamily a s fun s => runRow (rowWriteScratchpad s.cfg a th tl cfg) completeEmpty s

/-- SET_CONFIG (R211). -/
def execSetConfig (a : Addr) (lo hi : Word16) (r : Res) (s : State) : Result :=
  enter (.setConfig a lo hi r) s fun s =>
    requireFamily a s fun s =>
      requireAlarmRange lo hi s fun s => runRow (rowSetConfig s.cfg a lo hi r) completeEmpty s

/-- COPY_SCRATCHPAD (R212). -/
def execCopyScratchpad (a : Addr) (s : State) : Result :=
  enter (.copyScratchpad a) s fun s =>
    requireFamily a s fun s => runRow (rowCopyScratchpad s.cfg a) completeEmpty s

/-- RECALL_EEPROM (R213). -/
def execRecallEeprom (a : Addr) (s : State) : Result :=
  enter (.recallEeprom a) s fun s =>
    requireFamily a s fun s => runRow (rowRecallEeprom s.cfg a) completeRecall s

/-- READ_POWER (R214). -/
def execReadPower (a : Addr) (s : State) : Result :=
  enter (.readPower a) s fun s =>
    requireFamily a s fun s => runRow (rowReadPower s.cfg a) completePower s

end Sys2Proof.Machine
end

