-- ==== Sys2Proof/Machine/Dispatch.lean ====
section
/-! DEFINITION. The meaning of each request (30_encoding.md R83), one arm per constructor. -/

namespace Sys2Proof.Machine

/-- A request's meaning: accept it if the core is IDLE, and run it as far as the pending answers go (R200). -/
def exec (i : Instr) (s : State) : Host.Outcome State Fault Refusal :=
  match i with
  | .crcCompute bytes => Sys2Proof.Machine.execCrcCompute bytes s
  | .crcVerify bytes => Sys2Proof.Machine.execCrcVerify bytes s
  | .spDecode raw => Sys2Proof.Machine.execSpDecode raw s
  | .spEncodeConfig r => Sys2Proof.Machine.execSpEncodeConfig r s
  | .sensorData raw => Sys2Proof.Machine.execSensorData raw s
  | .tempConvert t r => Sys2Proof.Machine.execTempConvert t r s
  | .convTime r => Sys2Proof.Machine.execConvTime r s
  | .regBits r => Sys2Proof.Machine.execRegBits r s
  | .fromRegBits b => Sys2Proof.Machine.execFromRegBits b s
  | .checkAddress a => Sys2Proof.Machine.execCheckAddress a s
  | .startConvAddr a => Sys2Proof.Machine.execStartConvAddr a s
  | .startConvAll => Sys2Proof.Machine.execStartConvAll s
  | .readScratchpad a => Sys2Proof.Machine.execReadScratchpad a s
  | .writeScratchpad a th tl cfg => Sys2Proof.Machine.execWriteScratchpad a th tl cfg s
  | .copyScratchpad a => Sys2Proof.Machine.execCopyScratchpad a s
  | .recallEeprom a => Sys2Proof.Machine.execRecallEeprom a s
  | .readPower a => Sys2Proof.Machine.execReadPower a s
  | .readData a => Sys2Proof.Machine.execReadData a s
  | .setConfig a lo hi r => Sys2Proof.Machine.execSetConfig a lo hi r s

end Sys2Proof.Machine
end

