-- ==== Sys2Proof/Machine/Step.lean ====
section
/-! DEFINITION. One step of the core, and the placing of a table word on its host port. -/

namespace Sys2Proof.Machine

/-- One step. `rst` comes before everything (R290, R291). While BUSY the latched request goes on and the host's
frames are held (R21, R25). In IDLE the frame on the host port is taken and decoded: a request runs, anything else
completes with IllegalRequest (R85, R266); with no frame offered the core waits (R290). -/
def step (s : State) : Host.Outcome State Fault Refusal :=
  if s.rst then .next s.takeReset
  else
    match s.st with
    | .busy =>
      match s.req with
      | some i => exec i s
      | none => .fault .reqUnspecified
    | .idle =>
      match s.frames with
      | [] => .next s
      | f :: rest =>
        match decodeFrame s.cfg f with
        | .ok i => exec i { s with frames := rest }
        | .error _ => .next (State.rejectFrame { s with frames := rest })

/-- `s` with the frame of a table word on the host port, the core IDLE and `rst` deasserted, so that the next step
takes exactly that frame (log entries 11 and 13). -/
def State.withFetchWord (s : State) (nbits w : Nat) : State :=
  { s with st := .idle, rst := false, frames := tableFrame nbits w :: s.frames }

end Sys2Proof.Machine
end

