-- ==== Sys2Proof/Machine/Responder.lean ====
section
/-! DEFINITION. The reference responder (20_memory.md R72 to R78): a sensor device, the bus of such devices, and the
core in closed loop with it. ENVIRONMENT, for claims about a system with this device: no file of the core imports
it. What the spec leaves to a draw is an argument of the step (StepDraw, DevDraw), so a claim holds for every draw; what
it leaves out altogether is in log entries 17, 20 and 21. -/

namespace Sys2Proof.Machine

/-! ## The device (R72, R73) -/

/-- `ee[0..2]`: TH, TL and the configuration byte (R72). -/
structure Eeprom where
  th  : Byte
  tl  : Byte
  cfg : Byte
  deriving DecidableEq, Repr

/-- A conversion under way: the resolution in force at its start, the word W it writes when it ends, and the
microseconds until then (R72, R76). -/
structure Conversion where
  res    : Res
  word   : Word16
  leftUs : Nat
  deriving DecidableEq, Repr

/-- An EEPROM write under way: `sp[2..4]` at the command, and the microseconds until it is done (R75, R299). -/
structure EepromCopy where
  target : Eeprom
  leftUs : Nat
  deriving DecidableEq, Repr

/-- Where a device stands in a bus sequence (R74, R75): not taking part, waiting for the function command after a select
or after a skip, sending the rest of the scratchpad, receiving the data phase of a write, answering read-bits, or past a
command after a skip for which R77 defines nothing. -/
inductive DevPhase where
  | off
  | command
  | broadcast
  | sending (rest : List Byte)
  | receiving (data : List Byte)
  | power
  | recalling
  | undefined
  deriving DecidableEq, Repr

/-- A reference device (R72). `writeUs` and `recallUs` are the device's own EEPROM write time and recall time, which the
spec leaves OPEN as arguments of the environment (92_eei_decisions.md, closing section; 93_implementation_defined.md
U18). -/
structure Device where
  addr : Addr
  sp : Raw9
  ee : Eeprom
  pwr : BitVec 1
  writeUs : Nat
  recallUs : Nat
  conv : Option Conversion
  copy : Option EepromCopy
  /-- The microseconds until a recall under way is done. -/
  recallLeft : Option Nat
  phase : DevPhase
  deriving DecidableEq, Repr

/-- The device keeps `sp[8] = crc8(sp[0..7])` after every change it makes (R72). -/
def sealScratchpad (sp : Raw9) : Raw9 := { sp with b8 := crc8 (rawData sp) }

/-- What R72 says of every reference device: its address is of the family, and its scratchpad carries its own CRC. -/
abbrev Device.wf (c : Config) (d : Device) : Prop :=
  familyOk c d.addr = true ∧ d.sp.b8 = crc8 (rawData d.sp)

/-- The device's times are within the core's delays (R75, R299). A premise of a system claim that needs it, as the closing
section of 92_eei_decisions.md says; the core does not depend on it. -/
abbrev Device.timely (c : Config) (d : Device) : Prop :=
  d.writeUs ≤ 1000 * c.eepromWriteDelayMs.toNat ∧ d.recallUs ≤ 1000 * c.recallDelayMs.toNat

/-- The power-on device: 85.0 °C, 12 bits, TH and TL from the EEPROM (R73). -/
def devPowerOn (c : Config) (addr : Addr) (th tl : Byte) (pwr : BitVec 1) (writeUs recallUs : Nat) : Device where
  addr     := addr
  sp       := sealScratchpad ⟨0x50, 0x05, th, tl, encodeConfig c .r12, 0xFF, 0x0C, 0x10, 0x00⟩
  ee       := ⟨th, tl, encodeConfig c .r12⟩
  pwr      := pwr
  writeUs  := writeUs
  recallUs := recallUs
  conv     := none
  copy     := none
  recallLeft := none
  phase    := .off

/-! ## The draws (R71, R76; 93_implementation_defined.md U12 to U14) -/

/-- A device's draws for one step. `word` and `convUs` are those of a conversion that starts: W, any word (R76, R78), and
its duration, at most `conversion_time(r)`. `seesNew` is whether a read commanded before a conversion ends sees the new
word (R76, U13). `reached` is whether a primitive that fails or that `rst` abandons still reached this device: each
device on the bus has its own draw (R71, R277, R291; log entry 21). `copied` is what becomes of the EEPROM write of a
COPY_SCRATCHPAD that fails: it goes on (R304), or it ends with the byte `k` new where bit `k` is set and old elsewhere
(R300, U12). -/
structure DevDraw where
  word    : Word16
  convUs  : Nat
  seesNew : Bool
  reached : Bool
  copied  : Option (BitVec 3)
  deriving DecidableEq, Repr

/-- The draws for one step: whether the transport answers `Err`, the time the step takes beyond a requested delay, and
each device's draws. -/
structure StepDraw where
  err     : Bool
  extraUs : Nat
  devs    : List DevDraw
  deriving DecidableEq, Repr

/-- The draws of a device that the step names none for. A claim quantifies over every list, so it fixes nothing. -/
def DevDraw.none : DevDraw := ⟨0, 0, false, false, .none⟩

/-- The draws of the `k`-th device. -/
def StepDraw.dev (x : StepDraw) (k : Nat) : DevDraw := x.devs.getD k DevDraw.none

/-! ## What a device does (R74 to R77) -/

/-- The configuration byte as the device stores it: its reserved bits are read-only (R75). -/
def devStoredCfg (c : Config) (b : Byte) : Byte := (b &&& ~~~c.cfgReservedMask) ||| c.cfgReservedValue

/-- The scratchpad after a write of its bytes 2 to 4 (R75). -/
def spWritten (c : Config) (th tl cfg : Byte) (sp : Raw9) : Raw9 :=
  sealScratchpad { sp with b2 := th, b3 := tl, b4 := devStoredCfg c cfg }

/-- The scratchpad after a recall: bytes 2 to 4 are the EEPROM's (R75). -/
def spRecalled (ee : Eeprom) (sp : Raw9) : Raw9 := sealScratchpad { sp with b2 := ee.th, b3 := ee.tl, b4 := ee.cfg }

/-- The scratchpad after a conversion: bytes 0 and 1 are W (R76). -/
def spConverted (w : Word16) (sp : Raw9) : Raw9 := sealScratchpad { sp with b0 := loByte w, b1 := hiByte w }

/-- The scratchpad a read command finds: the word as it is, or, while a conversion is under way, the old word or the new
one as drawn (R76). -/
def spSeen (seesNew : Bool) (conv : Option Conversion) (sp : Raw9) : Raw9 :=
  match conv with
  | none => sp
  | some k => if seesNew then spConverted k.word sp else sp

/-- The conversion a convert command starts, at the resolution in the scratchpad (R76). -/
def convStarted (c : Config) (x : DevDraw) (sp : Raw9) : Option Conversion :=
  (rawRes c sp).map fun r => ⟨r, x.word, min x.convUs (conversionTime r).toNat⟩

/-- The function command after a select (R60, R75, R76). DESIGN CHOICE: a read command takes all nine bytes and a copy
command bytes 2 to 4 as they are at the command, also while a recall is under way that ends later, whose overlap with
another command the spec does not describe (log entry 17). -/
def devCommand (c : Config) (x : DevDraw) (b : Byte) (d : Device) : Device :=
  if b = c.cmdReadSp then { d with phase := .sending (rawBytes (spSeen x.seesNew d.conv d.sp)) }
  else if b = c.cmdWriteSp then { d with phase := .receiving [] }
  else if b = c.cmdCopySp then
    { d with copy := some ⟨⟨d.sp.b2, d.sp.b3, d.sp.b4⟩, d.writeUs⟩, phase := .off }
  else if b = c.cmdRecall then { d with recallLeft := some d.recallUs, phase := .recalling }
  else if b = c.cmdReadPwr then { d with phase := .power }
  else if b = c.cmdConvert then { d with conv := convStarted c x d.sp, phase := .off }
  else { d with phase := .off }

/-- The function command after a skip: a conversion at every device (R77). DESIGN CHOICE: for any other command, which R77
leaves undefined and the core never issues, the device stands in the phase `undefined`, and the closed loop stops
there (log entry 20). -/
def devBroadcast (c : Config) (x : DevDraw) (b : Byte) (d : Device) : Device :=
  if b = c.cmdConvert then { d with conv := convStarted c x d.sp, phase := .off } else { d with phase := .undefined }

/-- A byte written on the bus reaches a device; the third data byte of a write changes bytes 2 to 4 all at once (R61,
R74, R75). -/
def devWrite (c : Config) (x : DevDraw) (b : Byte) (d : Device) : Device :=
  match d.phase with
  | .command => devCommand c x b d
  | .broadcast => devBroadcast c x b d
  | .receiving [th, tl] => { d with sp := spWritten c th tl b d.sp, phase := .off }
  | .receiving data => { d with phase := .receiving (data ++ [b]) }
  | .off => d
  | .sending _ => d
  | .power => d
  | .recalling => d
  | .undefined => d

/-- What a device drives on a byte read; 0xFF is the idle line (R74, R75). -/
def devByte (d : Device) : Byte :=
  match d.phase with
  | .sending rest => rest.headD 0xFF
  | .off => 0xFF
  | .command => 0xFF
  | .broadcast => 0xFF
  | .receiving _ => 0xFF
  | .power => 0xFF
  | .recalling => 0xFF
  | .undefined => 0xFF

/-- What a device drives on a bit read: the power bit, or 1; a recall is done before the first read-bit (R74, R75). -/
def devBit (d : Device) : BitVec 1 :=
  match d.phase with
  | .power => d.pwr
  | .off => 1
  | .command => 1
  | .broadcast => 1
  | .sending _ => 1
  | .receiving _ => 1
  | .recalling => 1
  | .undefined => 1

/-- What the failure of a COPY_SCRATCHPAD makes of the EEPROM and of its write under way (R300, R304;
93_implementation_defined.md U12). -/
def copyInterrupted (x : DevDraw) (ee : Eeprom) (copy : Option EepromCopy) : Eeprom × Option EepromCopy :=
  match copy, x.copied with
  | some k, some m =>
    (⟨if m.getLsbD 0 then k.target.th else ee.th, if m.getLsbD 1 then k.target.tl else ee.tl,
      if m.getLsbD 2 then k.target.cfg else ee.cfg⟩, none)
  | copy, _ => (ee, copy)

/-- The COPY_SCRATCHPAD whose EEPROM write is under way has failed (R300). -/
def devInterrupt (x : DevDraw) (d : Device) : Device :=
  { d with ee := (copyInterrupted x d.ee d.copy).1, copy := (copyInterrupted x d.ee d.copy).2 }

/-- A device's part in one primitive (R74, R75). A reset ends whatever was open on the bus; it stops neither a conversion
nor an EEPROM write (R304). The first read-bit finds a recall done (R75). -/
def devTurn (c : Config) (x : DevDraw) (p : Prim) (d : Device) : Device :=
  match p with
  | .reset => { d with phase := .off }
  | .select a => { d with phase := if d.addr = a then .command else .off }
  | .skip => { d with phase := .broadcast }
  | .writeByte b => devWrite c x b d
  | .readByte =>
    match d.phase with
    | .sending rest => { d with phase := .sending rest.tail }
    | .off => d
    | .command => d
    | .broadcast => d
    | .receiving _ => d
    | .power => d
    | .recalling => d
    | .undefined => d
  | .readBit =>
    match d.phase, d.recallLeft with
    | .recalling, some _ => { d with sp := spRecalled d.ee d.sp, recallLeft := none }
    | _, _ => d
  | .delayMs _ => d
  | .delayUs _ => d

/-- A device's part in a primitive that reached it though its request ends there without completing: as ever, but the
EEPROM write that a copy command starts is that of a failed COPY_SCRATCHPAD (R300). -/
def devCut (c : Config) (x : DevDraw) (p : Prim) (d : Device) : Device :=
  if p = .writeByte c.cmdCopySp ∧ d.phase = .command then devInterrupt x (devTurn c x p d) else devTurn c x p d

/-- A device's part in a primitive that reached it and that the transport answers `Err`. A data phase that ends in BusError
changes none of bytes 2 to 4: a third data byte that fails is not committed (R61, R210, R271). -/
def devFailed (c : Config) (x : DevDraw) (p : Prim) (d : Device) : Device :=
  match p, d.phase with
  | .writeByte _, .receiving [_, _] => d
  | p, _ => devCut c x p d

/-- A device's part when `rst` abandons what the core is presenting (R291): a primitive reached it or not, as drawn, and
keeps its effects; a COPY_SCRATCHPAD abandoned in its delay has failed at its own device (R300). -/
def devAbandoned (c : Config) (x : DevDraw) (core : State) (d : Device) : Device :=
  match core.portOut with
  | none => d
  | some (.delayMs _) => if core.req = some (.copyScratchpad d.addr) then devInterrupt x d else d
  | some p => if x.reached then devCut c x p d else d

/-! ## Time at a device (R75, R76, R299) -/

/-- An EEPROM write after `us` microseconds. -/
def copyAfter (us : Nat) (ee : Eeprom) (copy : Option EepromCopy) : Eeprom × Option EepromCopy :=
  match copy with
  | none => (ee, none)
  | some k => if k.leftUs ≤ us then (k.target, none) else (ee, some { k with leftUs := k.leftUs - us })

/-- A recall after `us` microseconds. It takes the EEPROM's bytes as they are when it is done. DESIGN CHOICE: the spec does
not order a recall and an EEPROM write that are under way together; here the one with less time left ends first, and a
write that ends at the same moment ends before the recall (log entry 17). -/
def recallAfter (us : Nat) (ee : Eeprom) (copy : Option EepromCopy) (sp : Raw9) (left : Option Nat) :
    Raw9 × Option Nat :=
  match left with
  | none => (sp, none)
  | some rest => if rest ≤ us then (spRecalled (copyAfter rest ee copy).1 sp, none) else (sp, some (rest - us))

/-- A conversion after `us` microseconds. -/
def convAfter (us : Nat) (sp : Raw9) (conv : Option Conversion) : Raw9 × Option Conversion :=
  match conv with
  | none => (sp, none)
  | some k => if k.leftUs ≤ us then (spConverted k.word sp, none) else (sp, some { k with leftUs := k.leftUs - us })

/-- A device after `us` microseconds: the EEPROM write, the recall and the conversion under way go on. Where a write and a
recall both end in that time, recallAfter says in which order (log entry 17). -/
def devElapse (us : Nat) (d : Device) : Device :=
  let recalled := recallAfter us d.ee d.copy d.sp d.recallLeft
  let converted := convAfter us recalled.1 d.conv
  { d with
    ee := (copyAfter us d.ee d.copy).1, copy := (copyAfter us d.ee d.copy).2,
    recallLeft := recalled.2, sp := converted.1, conv := converted.2 }

/-- The microseconds a primitive requests (R23). -/
def primUs (p : Prim) : Nat :=
  match p with
  | .reset => 0
  | .select _ => 0
  | .skip => 0
  | .writeByte _ => 0
  | .readByte => 0
  | .readBit => 0
  | .delayMs n => 1000 * n.toNat
  | .delayUs n => n.toNat

/-! ## The bus and the closed loop -/

/-- The transport's answer `v`, or `Err` as drawn (R71). -/
def StepDraw.answer {α : Type} (x : StepDraw) (v : α) : Answer α := if x.err then .err else .ok v

/-- The bus's answer to a primitive, put where the core takes it (R23, R71, R74). -/
def busAnswer (x : StepDraw) (p : Prim) (ds : List Device) (s : State) : State :=
  match p with
  | .reset => s.setResets (s.bus.resets ++ [x.answer (if ds.isEmpty then .absent else .present)])
  | .select _ => s.setAcks (s.bus.acks ++ [x.answer ()])
  | .skip => s.setAcks (s.bus.acks ++ [x.answer ()])
  | .writeByte _ => s.setAcks (s.bus.acks ++ [x.answer ()])
  | .readByte => s.setBytes (s.bus.bytes ++ [x.answer (ds.foldl (fun line d => line &&& devByte d) 0xFF)])
  | .readBit => s.setBits (s.bus.bits ++ [x.answer (ds.foldl (fun line d => line &&& devBit d) 1)])
  | .delayMs _ => { s with timer := { s.timer with ends := s.timer.ends ++ [x.extraUs] } }
  | .delayUs _ => { s with timer := { s.timer with ends := s.timer.ends ++ [x.extraUs] } }

/-- The core and the devices on its bus. -/
structure System where
  core    : State
  devices : List Device
  deriving DecidableEq, Repr

/-- Every device on the bus is a reference device (R72). -/
abbrev System.wf (y : System) : Prop := ∀ d ∈ y.devices, d.wf y.core.cfg

/-- The devices after a primitive and the time the step takes. One that the transport answers `Err` reached
each device or not, as drawn for that device. -/
def busTurn (c : Config) (x : StepDraw) (p : Prim) (ds : List Device) : List Device :=
  ds.mapIdx fun k d => devElapse (primUs p + x.extraUs)
    (if x.err then (if (x.dev k).reached then devFailed c (x.dev k) p d else d) else devTurn c (x.dev k) p d)

/-- The devices while a `rst` abandons what the core was presenting, which gets no answer (R291). -/
def busAbandoned (c : Config) (x : StepDraw) (core : State) (ds : List Device) : List Device :=
  ds.mapIdx fun k d => devElapse x.extraUs (devAbandoned c (x.dev k) core d)

/-- The bus's part of a step: it answers the primitive the core presents, if it presents one. -/
def System.answer (x : StepDraw) (y : System) : System :=
  if y.core.rst then ⟨y.core, busAbandoned y.core.cfg x y.core y.devices⟩
  else
    match y.core.portOut with
    | none => ⟨y.core, y.devices.map (devElapse x.extraUs)⟩
    | some p => ⟨busAnswer x p y.devices y.core, busTurn y.core.cfg x p y.devices⟩

/-- One step of the closed loop: the bus answers, then the core steps; `none` where the core stops or the responder
defines nothing (R77). -/
def System.step (x : StepDraw) (y : System) : Option System :=
  let z := y.answer x
  if z.devices.any fun d => d.phase == .undefined then none
  else
    match Machine.step z.core with
    | .next t => some ⟨t, z.devices⟩
    | .fault _ => none
    | .refused _ => none

/-- The closed loop, one step for each of the draws. -/
def System.run (xs : List StepDraw) (y : System) : Option System :=
  match xs with
  | [] => some y
  | x :: rest =>
    match y.step x with
    | some y' => System.run rest y'
    | none => none

end Sys2Proof.Machine
end

