-- ==== Sys2Proof/WellFormed.lean ====
section
/-! DEFINITION. Which requests a frame can spell: every operand's type bounds it, but for the length of a SEQ
operand (30_encoding.md R81). -/

namespace Sys2Proof

/-- A SEQ operand has `n ≤ P_SEQ_MAX` bytes (R81). -/
def seqFits (c : Config) (bytes : List Byte) : Bool := decide (bytes.length ≤ c.seqMax.toNat)

/-- The well-formed requests under the parameters `c`. -/
def Instr.wf (c : Config) (i : Instr) : Bool :=
  match i with
  | .crcCompute bytes => seqFits c bytes
  | .crcVerify bytes => seqFits c bytes
  | .spDecode _ => true
  | .spEncodeConfig _ => true
  | .sensorData _ => true
  | .tempConvert _ _ => true
  | .convTime _ => true
  | .regBits _ => true
  | .fromRegBits _ => true
  | .checkAddress _ => true
  | .startConvAddr _ => true
  | .startConvAll => true
  | .readScratchpad _ => true
  | .writeScratchpad _ _ _ _ => true
  | .copyScratchpad _ => true
  | .recallEeprom _ => true
  | .readPower _ => true
  | .readData _ => true
  | .setConfig _ _ _ _ => true

end Sys2Proof
end

