-- ==== Sys2Proof/Safety.lean ====
section
/-! DEFINITION. What counts as a safe run: the invariant of the core's state that every step keeps, in the terms the
claims use. -/

namespace Sys2Proof.Machine

/-- The address operand of an addressed request (R201). -/
def addressOf (i : Instr) : Option Addr :=
  match i with
  | .crcCompute _ => none
  | .crcVerify _ => none
  | .spDecode _ => none
  | .spEncodeConfig _ => none
  | .sensorData _ => none
  | .tempConvert _ _ => none
  | .convTime _ => none
  | .regBits _ => none
  | .fromRegBits _ => none
  | .checkAddress a => some a
  | .startConvAddr a => some a
  | .startConvAll => none
  | .readScratchpad a => some a
  | .writeScratchpad a _ _ _ => some a
  | .copyScratchpad a => some a
  | .recallEeprom a => some a
  | .readPower a => some a
  | .readData a => some a
  | .setConfig a _ _ _ => some a

/-- The alarm operands of a request that has them are in −128..127 (R201). -/
def alarmsFit (i : Instr) : Bool :=
  match i with
  | .crcCompute _ => true
  | .crcVerify _ => true
  | .spDecode _ => true
  | .spEncodeConfig _ => true
  | .sensorData _ => true
  | .tempConvert _ _ => true
  | .convTime _ => true
  | .regBits _ => true
  | .fromRegBits _ => true
  | .checkAddress _ => true
  | .startConvAddr _ => true
  | .startConvAll => true
  | .readScratchpad _ => true
  | .writeScratchpad _ _ _ _ => true
  | .copyScratchpad _ => true
  | .recallEeprom _ => true
  | .readPower _ => true
  | .readData _ => true
  | .setConfig _ lo hi _ => inAlarmRange lo && inAlarmRange hi

/-- A request passes the checks before bus I/O (R201). -/
def checksPass (c : Config) (i : Instr) : Bool := (addressOf i).all (familyOk c) && alarmsFit i

/-- How many bytes of `rx` a request has received when it is about to issue step `k` (R27, R217). -/
def bytesReceived (i : Instr) (k : Nat) : Nat :=
  match i with
  | .crcCompute _ => 0
  | .crcVerify _ => 0
  | .spDecode _ => 0
  | .spEncodeConfig _ => 0
  | .sensorData _ => 0
  | .tempConvert _ _ => 0
  | .convTime _ => 0
  | .regBits _ => 0
  | .fromRegBits _ => 0
  | .checkAddress _ => 0
  | .startConvAddr _ => 0
  | .startConvAll => 0
  | .readScratchpad _ => k - 3
  | .writeScratchpad _ _ _ _ => 0
  | .copyScratchpad _ => 0
  | .recallEeprom _ => 0
  | .readPower _ => 0
  | .readData _ => k - 3
  | .setConfig _ _ _ _ => 0

/-- While BUSY: a well-formed request is latched, it has passed its checks, `step` is inside its row of the sequence
table, exactly the bytes received so far stand in `rx`, and there is no response (R24 to R27, R29, R201, R217). -/
structure BusyOk (s : State) : Prop where
  noResponse : s.respValid = false
  latched : ∃ i, s.req = some i ∧ i.wf s.cfg = true ∧ checksPass s.cfg i = true ∧
    s.step < (sequenceRow s.cfg i).length ∧
    ∀ j : Fin 9, (s.rx[j]).isSome = decide (j.val < bytesReceived i s.step)

/-- The response registers agree: no response holds no value; an OK response holds a status and a value; an error
holds its status and no value (R29 to R31). -/
def ResponseOk (s : State) : Prop :=
  match s.respValid, s.respStatus, s.respValue with
  | false, none, none => True
  | true, some .ok, some _ => True
  | true, some (.error _), none => True
  | _, _, _ => False

/-- The invariant of the core: the parameters meet R8, IDLE holds no request and `step` 0 (R24 to R26), BUSY is as
BusyOk says, and the response registers agree. -/
structure State.Inv (s : State) : Prop where
  params   : s.cfg.wf
  idle     : s.st = .idle → s.req = none ∧ s.step = 0
  busy     : s.st = .busy → BusyOk s
  response : ResponseOk s

/-! ## Events of a trace (R70) -/

/-- The primitive an event records (R70). -/
def eventPrim (e : Event) : Prim :=
  match e with
  | .reset _ => .reset
  | .select a _ => .select a
  | .skip _ => .skip
  | .write b _ => .writeByte b
  | .read _ => .readByte
  | .readBit _ => .readBit
  | .delayMs n => .delayMs n
  | .delayUs n => .delayUs n

/-- Whether an event's answer lets the sequence go on: reset fails on Absent or Err, every other primitive on Err, and
a delay cannot fail (R217). -/
def eventOk (e : Event) : Bool :=
  match e with
  | .reset (.ok .present) => true
  | .reset (.ok .absent) => false
  | .reset .err => false
  | .select _ (.ok _) => true
  | .select _ .err => false
  | .skip (.ok _) => true
  | .skip .err => false
  | .write _ (.ok _) => true
  | .write _ .err => false
  | .read (.ok _) => true
  | .read .err => false
  | .readBit (.ok _) => true
  | .readBit .err => false
  | .delayMs _ => true
  | .delayUs _ => true

/-- The transport before an event's answer was taken: that answer stands first in its queue. A delay takes no answer of the
transport (R23, R71). -/
def putBack (e : Event) (b : Transport) : Transport :=
  match e with
  | .reset x => { b with resets := x :: b.resets }
  | .select _ x => { b with acks := x :: b.acks }
  | .skip x => { b with acks := x :: b.acks }
  | .write _ x => { b with acks := x :: b.acks }
  | .read x => { b with bytes := x :: b.bytes }
  | .readBit x => { b with bits := x :: b.bits }
  | .delayMs _ => b
  | .delayUs _ => b

/-- A primitive has no answer ready: the core that presents it is blocked (R11, R64). -/
def Unanswered (p : Prim) (s : State) : Prop :=
  match p with
  | .reset => s.bus.resets = []
  | .select _ => s.bus.acks = []
  | .skip => s.bus.acks = []
  | .writeByte _ => s.bus.acks = []
  | .readByte => s.bus.bytes = []
  | .readBit => s.bus.bits = []
  | .delayMs _ => s.timer.ends = []
  | .delayUs _ => s.timer.ends = []

end Sys2Proof.Machine
end

