-- ==== Sys2Proof/Certificates/Slice0/Obligations.lean ====
section
/-! DEFINITION. The statements for the provers, and the few words they are said in. -/

namespace Sys2Proof.Claims

open Sys2Proof.Machine

/-- The state after an accepted request has completed with status OK and result bytes `v`, nothing else changed
(R24 to R27, R29 to R31). -/
def finished (v : List Byte) (s : State) : State :=
  { s with st := .idle, req := none, step := 0, rx := rxEmpty, respValid := true, respStatus := some .ok, respValue := some v }

/-- The state after an accepted request has ended in the error `e`, nothing else changed (R27, R269). -/
def failedWith (e : ErrorKind) (s : State) : State :=
  { s with
    st := .idle, req := none, step := 0, rx := rxEmpty, respValid := true, respStatus := some (.error e), respValue := none }

/-- A CRC computation was made: the register's value is unspecified after it (R28). -/
def crcUsed (s : State) : State :=
  { s with crc := Config.unspecifiedCrc s.freeCtr, freeCtr := s.freeCtr + 1 }

/-- The two events that open an addressed sequence (R202). -/
def opened (a : Addr) : List Event := [.reset (.ok .present), .select a (.ok ())]

/-- IDLE, an address of the family, a presence pulse and `n` Ok answers ready; `rs` and `as` are the answers left. -/
def Ready (s : State) (a : Addr) (n : Nat) (rs : List (Answer Presence)) (as : List (Answer Unit)) : Prop :=
  s.st = .idle ∧ a.a0 = s.cfg.familyCode ∧ s.bus.resets = .ok .present :: rs ∧
    s.bus.acks = List.replicate n (.ok ()) ++ as

/-- `rx` holding nine received bytes. -/
def received (raw : Raw9) : Vector (Option Byte) 9 :=
  #v[some raw.b0, some raw.b1, some raw.b2, some raw.b3, some raw.b4, some raw.b5, some raw.b6, some raw.b7, some raw.b8]

/-- The byte an event brought, if it is an answered read. -/
def byteRead (e : Event) : Option Byte :=
  match e with
  | .read (.ok b) => some b
  | _ => none

/-- An event of the timing port (R23). -/
def isDelay (e : Event) : Bool :=
  match e with
  | .delayMs _ => true
  | .delayUs _ => true
  | _ => false

/-- `rx` after the events `es` of a bus phase: its `j`-th byte is the one the `j`-th answered read brought, and is unwritten
where there was none (R27, R208). -/
def receivedIn (es : List Event) : Vector (Option Byte) 9 :=
  Vector.ofFn fun j => (es.filterMap byteRead)[j.val]?

/-- The timing port across the events `es`, the delays among them ended `late` microseconds late (R23; log entry 4). -/
def TimerPassed (es : List Event) (late : List Nat) (before after : Timer) : Prop :=
  late.length = es.countP isDelay ∧
  before.ends = late ++ after.ends ∧
  after.waitedUs = before.waitedUs + (es.map fun e => primUs (eventPrim e)).sum + late.sum

/-- The twelve events of a scratchpad read that is answered in full (R208, R217). -/
def readEvents (c : Config) (a : Addr) (raw : Raw9) : List Event :=
  opened a ++ .write c.cmdReadSp (.ok ()) :: (rawBytes raw).map fun b => .read (.ok b)

/-- Ready for a scratchpad read that is answered in full with `raw`; `bs` are the byte answers left. -/
def ReadReady (s : State) (a : Addr) (raw : Raw9) (rs : List (Answer Presence)) (as : List (Answer Unit))
    (bs : List (Answer Byte)) : Prop :=
  Ready s a 2 rs as ∧ s.bus.bytes = (rawBytes raw).map .ok ++ bs

/-- The state after such a read has completed with result bytes `v`. -/
def readDone (v : List Byte) (s : State) (a : Addr) (raw : Raw9) (rs : List (Answer Presence))
    (as : List (Answer Unit)) (bs : List (Answer Byte)) : State :=
  { finished v (crcUsed s) with
    rx := received raw, bus := ⟨rs, as, bs, s.bus.bits⟩, trace := s.trace ++ readEvents s.cfg a raw }

/-- The state after such a read has ended in the error `e` of the decode. -/
def readFailed (e : ErrorKind) (s : State) (a : Addr) (raw : Raw9) (rs : List (Answer Presence))
    (as : List (Answer Unit)) (bs : List (Answer Byte)) : State :=
  { failedWith e (crcUsed s) with
    rx := received raw, bus := ⟨rs, as, bs, s.bus.bits⟩, trace := s.trace ++ readEvents s.cfg a raw }

/-- The requests with opcode 0x80 or above: the bus requests (R83, R217). -/
def isBusRequest (i : Instr) : Bool := decide (0x80 ≤ (opcodeRow (opcodeOf i)).op.toNat)

/-- The requests that decode a scratchpad (R145). -/
def isScratchpadRead (i : Instr) : Prop := ∃ a, i = .readScratchpad a ∨ i = .readData a

/-- The requests that make no CRC computation. -/
def usesNoCrc (i : Instr) : Bool :=
  match i with
  | .crcCompute _ => false
  | .crcVerify _ => false
  | .spDecode _ => false
  | .spEncodeConfig _ => true
  | .sensorData _ => false
  | .tempConvert _ _ => true
  | .convTime _ => true
  | .regBits _ => true
  | .fromRegBits _ => true
  | .checkAddress _ => true
  | .startConvAddr _ => true
  | .startConvAll => true
  | .readScratchpad _ => false
  | .writeScratchpad _ _ _ _ => true
  | .copyScratchpad _ => true
  | .recallEeprom _ => true
  | .readPower _ => true
  | .readData _ => false
  | .setConfig _ _ _ _ => true

/-- `bytes` with bit `j` of byte `k` flipped (R126). -/
def flipBit (bytes : List Byte) (k j : Nat) : List Byte :=
  bytes.modify k fun b => b ^^^ ((1 : Byte) <<< j)

/-- `s` after the environment has made more answers and delay ends ready. -/
def supply (more : Transport) (ends : List Nat) (s : State) : State :=
  { s with
    bus := ⟨s.bus.resets ++ more.resets, s.bus.acks ++ more.acks, s.bus.bytes ++ more.bytes, s.bus.bits ++ more.bits⟩
    timer := { s.timer with ends := s.timer.ends ++ ends } }

/-- Two states that agree in everything a running request goes by: the parameters, the answers and delay ends ready, and,
while BUSY, the request, its step and the bytes received. -/
structure Alike (s s' : State) : Prop where
  cfg  : s'.cfg = s.cfg
  st   : s'.st = s.st
  bus  : s'.bus = s.bus
  ends : s'.timer.ends = s.timer.ends
  busy : s.st = .busy → s'.req = s.req ∧ s'.step = s.step ∧ s'.rx = s.rx

/-- Two states that agree in the sequencer's and the response registers. -/
def SameRegisters (t t' : State) : Prop :=
  t'.st = t.st ∧ t'.req = t.req ∧ t'.step = t.step ∧ t'.rx = t.rx ∧ t'.respValid = t.respValid ∧
  t'.respStatus = t.respStatus ∧ t'.respValue = t.respValue

/-- The same events were added to the trace in the two steps. -/
def SameEvents (s s' t t' : State) : Prop := ∃ es, t.trace = s.trace ++ es ∧ t'.trace = s'.trace ++ es

/-- A transport that answers no `Err` in these steps. -/
def NoErr (xs : List StepDraw) : Prop := ∀ x ∈ xs, x.err = false

/-- A request that writes the scratchpad bytes `th`, `tl` and `b` of the device `a` (R210, R211). -/
def WritesScratchpad (c : Config) (a : Addr) (i : Instr) (th tl b : Byte) : Prop :=
  i = .writeScratchpad a th tl b ∨
  ∃ lo hi r, i = .setConfig a lo hi r ∧ (-128 ≤ lo.toInt ∧ lo.toInt ≤ 127) ∧ (-128 ≤ hi.toInt ∧ hi.toInt ≤ 127) ∧
    alarmDegrees th = hi.toInt ∧ alarmDegrees tl = lo.toInt ∧ b = encodeConfig c r

end Sys2Proof.Claims

open Sys2Proof Sys2Proof.Machine Sys2Proof.Claims

/-! ## Frames -/

/-- Frames of the spec's vectors (95_test_vectors.md C7, D1, E1, T3, M4, M11, Q1, Q7, Q16, Q20) decode to the
requests they spell. -/
def Obligations.SpecFramesDecode : Prop :=
  let a : Addr := ⟨0x28, 0xFF, 0x4C, 0x60, 0x91, 0x16, 0x04, 0xB4⟩
  let d (f : List Byte) (i : Instr) : Prop := decodeFrame Config.default f = .ok i
  d [0x01, 0x02, 0x01, 0x02] (.crcCompute [0x01, 0x02]) ∧
  d [0x10, 0x50, 0x05, 0x4B, 0x46, 0x7F, 0xFF, 0x0C, 0x10, 0x1C]
    (.spDecode ⟨0x50, 0x05, 0x4B, 0x46, 0x7F, 0xFF, 0x0C, 0x10, 0x1C⟩) ∧
  d [0x11, 0x09] (.spEncodeConfig .r9) ∧
  d [0x20, 0x5F, 0x05, 0x09] (.tempConvert 0x055F .r9) ∧
  d [0x30, 0x0C] (.convTime .r12) ∧
  d [0x32, 0x02] (.fromRegBits 0x02) ∧
  d [0x80, 0x28, 0xFF, 0x4C, 0x60, 0x91, 0x16, 0x04, 0xB4] (.startConvAddr a) ∧
  d [0x81] .startConvAll ∧
  d [0x83, 0x28, 0xFF, 0x4C, 0x60, 0x91, 0x16, 0x04, 0xB4, 0x18, 0x12, 0x7F] (.writeScratchpad a 0x18 0x12 0x7F) ∧
  d [0x91, 0x28, 0xFF, 0x4C, 0x60, 0x91, 0x16, 0x04, 0xB4, 0x80, 0xFF, 0x7F, 0x00, 0x09]
    (.setConfig a 0xFF80 0x007F .r9)

/-- Every well-formed request is what the decoder reads from its frame, under every parameter set. -/
def Obligations.DecodeOfEncodeIsTheRequest : Prop :=
  ∀ (c : Config) (i : Instr), i.wf c = true → decodeFrame c (encode i) = .ok i

/-- A frame the decoder accepts is the frame of the request it reads, and that request is well-formed: nothing else
decodes, so every other frame is IllegalRequest (R85, R89). -/
def Obligations.OnlyEncodedRequestsDecode : Prop :=
  ∀ (c : Config) (f : List Byte) (i : Instr), decodeFrame c f = .ok i → f = encode i ∧ i.wf c = true

/-- R84: the length of a frame the decoder accepts is given by OP alone, and for format FS it is `2 + f[1]`. -/
def Obligations.FrameLengthComesFromOpcode : Prop :=
  ∀ (c : Config) (f : List Byte) (i : Instr), decodeFrame c f = .ok i →
    ∃ (op : Byte) (o : Opcode), f.head? = some op ∧ opcodeOfByte op = some o ∧
      f.length = if (opcodeRow o).fmt = .FS then 2 + (f.getD 1 0).toNat else formatLength (opcodeRow o).fmt 0

/-! ## CRC-8 checker -/

/-- R127: the per-byte update is linear over GF(2) in the pair, depends on it only through `c ^ b`, and has the sample
table entries. -/
def Obligations.CrcByteIsALinearTable : Prop :=
  (∀ c c' b b' : Byte, crc8Byte (c ^^^ c') (b ^^^ b') = crc8Byte c b ^^^ crc8Byte c' b') ∧
  (∀ c b : Byte, crc8Byte c b = crc8Byte 0x00 (c ^^^ b)) ∧
  crc8Byte 0x00 0x01 = 0x5E ∧ crc8Byte 0x00 0x80 = 0x8C ∧ crc8Byte 0x00 0xFF = 0x35

/-- R125: the residue is zero, and CRC_VERIFY of a non-empty sequence answers true exactly when its CRC is zero. -/
def Obligations.CrcResidueIsZero : Prop :=
  (∀ bytes : List Byte, crc8 (bytes ++ [crc8 bytes]) = 0x00) ∧
  ∀ (bytes : List Byte) (s : State), 1 ≤ bytes.length → s.st = .idle →
    exec (.crcVerify bytes) s = .next (finished [if crc8 bytes = 0x00 then 0x01 else 0x00] (crcUsed s))

/-- R126: flipping any single bit in `b ++ [compute(b)]` changes the CRC by the CRC of that bit alone, which is nonzero,
so the CRC is nonzero and CRC_VERIFY answers false. -/
def Obligations.SingleBitFlipIsDetected : Prop :=
  ∀ (bytes : List Byte) (k j : Nat) (s : State), k ≤ bytes.length → j < 8 → s.st = .idle →
    crc8 (flipBit (bytes ++ [crc8 bytes]) k j) =
      crc8 (bytes ++ [crc8 bytes]) ^^^ crc8 (flipBit (List.replicate (bytes.length + 1) 0x00) k j) ∧
    crc8 (flipBit (List.replicate (bytes.length + 1) 0x00) k j) ≠ 0x00 ∧
    crc8 (flipBit (bytes ++ [crc8 bytes]) k j) ≠ 0x00 ∧
    exec (.crcVerify (flipBit (bytes ++ [crc8 bytes]) k j)) s = .next (finished [0x00] (crcUsed s))

/-- CRC_COMPUTE answers the CRC of its bytes, and changes nothing but the response and the CRC register (R123). -/
def Obligations.CrcComputeAnswersTheCrc : Prop :=
  ∀ (bytes : List Byte) (s : State), s.st = .idle →
    exec (.crcCompute bytes) s = .next (finished [crc8 bytes] (crcUsed s))

/-- CRC_VERIFY of no bytes answers false; of bytes and a last byte, whether that byte is their CRC (R124). -/
def Obligations.CrcVerifyComparesTheLastByte : Prop :=
  ∀ s : State, s.st = .idle →
    exec (.crcVerify []) s = .next (finished [0x00] s) ∧
    ∀ (bytes : List Byte) (last : Byte),
      exec (.crcVerify (bytes ++ [last])) s =
        .next (finished [if crc8 bytes = last then 0x01 else 0x00] (crcUsed s))

/-! ## Scratchpad codec -/

/-- With the reserved bits checked, a byte decodes to a resolution exactly when it is the byte `encode_config` makes
of it; unchecked, every byte decodes by its bits 6:5 (R141, R143). -/
def Obligations.ConfigByteDecodesOnlyIfEncoded : Prop :=
  ∀ c : Config, c.wf →
    (c.cfgStrict = true → ∀ (b : Byte) (r : Res), cfgDecode c b = some r ↔ b = encodeConfig c r) ∧
    (c.cfgStrict = false → ∀ b : Byte, ∃ r, cfgDecode c b = some r ∧ resCode c r = b.extractLsb' 5 2)

/-- SP_ENCODE_CONFIG answers the resolution code in bits 6:5 with the reserved bits' value (R143). -/
def Obligations.SpEncodeConfigAnswersTheByte : Prop :=
  ∀ (r : Res) (s : State), s.st = .idle →
    exec (.spEncodeConfig r) s =
      .next (finished [((resCode s.cfg r).setWidth 8 <<< 5) ||| s.cfg.cfgReservedValue] s)

/-- SP_DECODE of a scratchpad whose CRC and configuration byte are good answers the raw word, TH, TL, RES and CRC
(R142). -/
def Obligations.SpDecodeAnswersTheRecord : Prop :=
  ∀ (raw : Raw9) (r : Res) (s : State), s.st = .idle →
    crc8 (rawData raw) = raw.b8 → cfgDecode s.cfg raw.b4 = some r →
    exec (.spDecode raw) s =
      .next (finished [raw.b0, raw.b1, raw.b2, raw.b3, resByte r, raw.b8] (crcUsed s))

/-- SENSOR_DATA of a scratchpad whose CRC and configuration byte are good answers the word masked to its own
resolution, RES, TL and TH (R144). -/
def Obligations.SensorDataAnswersTheReading : Prop :=
  ∀ (raw : Raw9) (r : Res) (s : State), s.st = .idle →
    crc8 (rawData raw) = raw.b8 → cfgDecode s.cfg raw.b4 = some r →
    exec (.sensorData raw) s =
      .next (finished
        [loByte (word16 raw.b0 raw.b1 &&& tempMask r), hiByte (word16 raw.b0 raw.b1 &&& tempMask r), resByte r, raw.b3,
         raw.b2] (crcUsed s))

/-- R146: in SP_DECODE and SENSOR_DATA a bad CRC is ChecksumError whatever the configuration byte, and
MalformedConfigError is reported only when the CRC is good. -/
def Obligations.ChecksumErrorComesFirst : Prop :=
  ∀ (raw : Raw9) (s : State) (i : Instr), i = .spDecode raw ∨ i = .sensorData raw → s.st = .idle →
    (crc8 (rawData raw) ≠ raw.b8 → exec i s = .next (failedWith .checksumError (crcUsed s))) ∧
    (crc8 (rawData raw) = raw.b8 → cfgDecode s.cfg raw.b4 = none →
      exec i s = .next (failedWith .malformedConfigError (crcUsed s)))

/-- R145: in every request that decodes a scratchpad, an OK result means the CRC of the bytes decoded was good, and
bytes whose CRC is bad give ChecksumError and no value. -/
def Obligations.InvalidScratchpadIsNeverDecoded : Prop :=
  ∀ (i : Instr) (s t : State), s.st = .idle → exec i s = .next t →
    (t.respStatus = some .ok →
      (∀ raw, i = .spDecode raw ∨ i = .sensorData raw → crc8 (rawData raw) = raw.b8) ∧
      (isScratchpadRead i → ∃ raw, t.rx = received raw ∧ crc8 (rawData raw) = raw.b8)) ∧
    ∀ raw, i = .spDecode raw ∨ i = .sensorData raw ∨ (isScratchpadRead i ∧ t.rx = received raw) →
      crc8 (rawData raw) ≠ raw.b8 → t.respStatus = some (.error .checksumError) ∧ t.respValue = none

/-! ## Temperature converter -/

/-- TEMP_CONVERT answers the masked word, low byte first (R161). -/
def Obligations.TempConvertAnswersTheMaskedWord : Prop :=
  ∀ (t : Word16) (r : Res) (s : State), s.st = .idle →
    exec (.tempConvert t r) s = .next (finished [loByte (t &&& tempMask r), hiByte (t &&& tempMask r)] s)

/-- R160's table: the masks of the four resolutions. -/
def Obligations.MaskTable : Prop :=
  tempMask .r12 = 0xFFFF ∧ tempMask .r11 = 0xFFFE ∧ tempMask .r10 = 0xFFFC ∧ tempMask .r9 = 0xFFF8

/-- R163: masking the pattern is the floor of the two's-complement value at the resolution's step, with `k = 12 - bits`
from 0 to 3, and never touches bit 15. -/
def Obligations.MaskingIsFloor : Prop :=
  (∀ (t : Word16) (r : Res),
    maskTemp t r = t &&& ((0xFFFF : Word16) <<< (12 - resBits r)) ∧
    (maskTemp t r).toInt = t.toInt.fdiv (2 ^ (12 - resBits r)) * 2 ^ (12 - resBits r) ∧ (maskTemp t r).msb = t.msb) ∧
  ∀ k ≤ 3, ∃ r, 12 - resBits r = k

/-- R164: masking rounds toward −∞ at the resolution's step: it never raises the temperature, and lowers it by less
than one step of `2^-(bits - 8)` °C, to a multiple of that step; with the rule's three examples at 9 bits. -/
def Obligations.MaskingRoundsDown : Prop :=
  (∀ (t : Word16) (r : Res),
    celsius (maskTemp t r) ≤ celsius t ∧ celsius t < celsius (maskTemp t r) + 1 / 2 ^ (resBits r - 8) ∧
    ∃ n : Int, celsius (maskTemp t r) = n / 2 ^ (resBits r - 8)) ∧
  celsius (maskTemp 0xFFF9 .r9) = -1 / 2 ∧ celsius (maskTemp 0xFFFF .r9) = -1 / 2 ∧ celsius (maskTemp 0x0007 .r9) = 0

/-- R162: the value of a masked word is its two's-complement value over 16, from −2048 (0x8000) to 2047.9375 (0x7FFF)
and a multiple of `2^-(bits - 8)` °C. -/
def Obligations.MaskedTemperatureRange : Prop :=
  (∀ (t : Word16) (r : Res),
    celsius (maskTemp t r) = (maskTemp t r).toInt / 16 ∧
    -2048 ≤ celsius (maskTemp t r) ∧ celsius (maskTemp t r) ≤ 2047 + 15 / 16 ∧
    ∃ n : Int, celsius (maskTemp t r) = n / 2 ^ (resBits r - 8)) ∧
  celsius 0x8000 = -2048 ∧ celsius 0x7FFF = 2047 + 15 / 16

/-! ## Resolution model -/

/-- CONV_TIME answers the conversion time in microseconds, u32, low byte first (R181). -/
def Obligations.ConvTimeAnswersTheTable : Prop :=
  ∀ s : State, s.st = .idle →
    exec (.convTime .r9) s = .next (finished [0x36, 0x6E, 0x01, 0x00] s) ∧
    exec (.convTime .r10) s = .next (finished [0x6C, 0xDC, 0x02, 0x00] s) ∧
    exec (.convTime .r11) s = .next (finished [0xD8, 0xB8, 0x05, 0x00] s) ∧
    exec (.convTime .r12) s = .next (finished [0xB0, 0x71, 0x0B, 0x00] s)

/-- R185: the closed form, each step doubling the time, the whole milliseconds rounded up, and that the times at 9 and 10
bits are not whole milliseconds. -/
def Obligations.ConversionTimeClosedForm : Prop :=
  (∀ r : Res, (conversionTime r).toNat = 750000 >>> (12 - resBits r)) ∧
  (conversionTime .r10).toNat = 2 * (conversionTime .r9).toNat ∧
  (conversionTime .r11).toNat = 2 * (conversionTime .r10).toNat ∧
  (conversionTime .r12).toNat = 2 * (conversionTime .r11).toNat ∧
  [Res.r9, .r10, .r11, .r12].map (fun r => ((conversionTime r).toNat + 999) / 1000) = [94, 188, 375, 750] ∧
  (conversionTime .r9).toNat % 1000 ≠ 0 ∧ (conversionTime .r10).toNat % 1000 ≠ 0

/-- REG_BITS answers the code, right-aligned with bits 7:2 zero (R87, R182). -/
def Obligations.RegBitsAnswersTheCode : Prop :=
  ∀ (r : Res) (s : State), s.st = .idle →
    exec (.regBits r) s = .next (finished [(resCode s.cfg r).setWidth 8] s)

/-- FROM_REG_BITS answers the resolution whose code the operand is, and MalformedConfigError for an operand above 3
(R183). -/
def Obligations.FromRegBitsAnswersTheResolution : Prop :=
  ∀ (b : Byte) (s : State), s.st = .idle → s.cfg.wf →
    (b.toNat ≤ 3 → ∃ r, (resCode s.cfg r).toNat = b.toNat ∧ exec (.fromRegBits b) s = .next (finished [resByte r] s)) ∧
    (3 < b.toNat → exec (.fromRegBits b) s = .next (failedWith .malformedConfigError s))

/-- R184: the round trip of the register bits, in both directions. -/
def Obligations.RegisterBitsRoundTrip : Prop :=
  ∀ c : Config, c.wf →
    (∀ r : Res, fromRegisterBits c (registerBits c r) = some r) ∧
    ∀ b : Byte, b.toNat ≤ 3 → ∃ r, fromRegisterBits c b = some r ∧ registerBits c r = b

/-! ## Command sequencer: completion -/

/-- CHECK_ADDRESS of an address of the family answers OK with no bytes and issues nothing (R205). -/
def Obligations.CheckAddressAcceptsTheFamily : Prop :=
  ∀ (a : Addr) (s : State), s.st = .idle → a.a0 = s.cfg.familyCode →
    exec (.checkAddress a) s = .next (finished [] s)

/-- START_CONV_ADDR, answered Ok throughout, completes with its three events (R206). -/
def Obligations.StartConvAddrCompletes : Prop :=
  ∀ (a : Addr) (s : State) (rs : List (Answer Presence)) (as : List (Answer Unit)), Ready s a 2 rs as →
    exec (.startConvAddr a) s = .next
      { finished [] s with
        bus := ⟨rs, as, s.bus.bytes, s.bus.bits⟩
        trace := s.trace ++ opened a ++ [.write s.cfg.cmdConvert (.ok ())] }

/-- START_CONV_ALL, answered Ok throughout, completes with its three events; there is no family check (R207). -/
def Obligations.StartConvAllCompletes : Prop :=
  ∀ (s : State) (rs : List (Answer Presence)) (as : List (Answer Unit)), s.st = .idle →
    s.bus.resets = .ok .present :: rs → s.bus.acks = .ok () :: .ok () :: as →
    exec .startConvAll s = .next
      { finished [] s with
        bus := ⟨rs, as, s.bus.bytes, s.bus.bits⟩
        trace := s.trace ++ [.reset (.ok .present), .skip (.ok ()), .write s.cfg.cmdConvert (.ok ())] }

/-- READ_SCRATCHPAD, answered in full with a good scratchpad, answers SP_DECODE's record of the bytes (R208). -/
def Obligations.ReadScratchpadCompletes : Prop :=
  ∀ (a : Addr) (raw : Raw9) (r : Res) (s : State) (rs : List (Answer Presence)) (as : List (Answer Unit))
    (bs : List (Answer Byte)), ReadReady s a raw rs as bs →
    crc8 (rawData raw) = raw.b8 → cfgDecode s.cfg raw.b4 = some r →
    exec (.readScratchpad a) s =
      .next (readDone [raw.b0, raw.b1, raw.b2, raw.b3, resByte r, raw.b8] s a raw rs as bs)

/-- READ_DATA, answered in full with a good scratchpad, answers SENSOR_DATA's reading of the bytes (R209). -/
def Obligations.ReadDataCompletes : Prop :=
  ∀ (a : Addr) (raw : Raw9) (r : Res) (s : State) (rs : List (Answer Presence)) (as : List (Answer Unit))
    (bs : List (Answer Byte)), ReadReady s a raw rs as bs →
    crc8 (rawData raw) = raw.b8 → cfgDecode s.cfg raw.b4 = some r →
    exec (.readData a) s =
      .next (readDone
        [loByte (word16 raw.b0 raw.b1 &&& tempMask r), hiByte (word16 raw.b0 raw.b1 &&& tempMask r), resByte r, raw.b3,
         raw.b2] s a raw rs as bs)

/-- The two scratchpad reads, answered in full with a bad scratchpad, end in ChecksumError or, the CRC being good, in
MalformedConfigError, after all twelve events (R208, R209, R262, R263). -/
def Obligations.ScratchpadReadsReportBadBytes : Prop :=
  ∀ (a : Addr) (raw : Raw9) (s : State) (rs : List (Answer Presence)) (as : List (Answer Unit))
    (bs : List (Answer Byte)) (i : Instr), i = .readScratchpad a ∨ i = .readData a → ReadReady s a raw rs as bs →
    (crc8 (rawData raw) ≠ raw.b8 → exec i s = .next (readFailed .checksumError s a raw rs as bs)) ∧
    (crc8 (rawData raw) = raw.b8 → cfgDecode s.cfg raw.b4 = none →
      exec i s = .next (readFailed .malformedConfigError s a raw rs as bs))

/-- WRITE_SCRATCHPAD, answered Ok throughout, writes the command and its three data bytes as given, TH first (R210). -/
def Obligations.WriteScratchpadCompletes : Prop :=
  ∀ (a : Addr) (th tl cfg : Byte) (s : State) (rs : List (Answer Presence)) (as : List (Answer Unit)),
    Ready s a 5 rs as →
    exec (.writeScratchpad a th tl cfg) s = .next
      { finished [] s with
        bus := ⟨rs, as, s.bus.bytes, s.bus.bits⟩
        trace := s.trace ++ opened a ++
          [.write s.cfg.cmdWriteSp (.ok ()), .write th (.ok ()), .write tl (.ok ()), .write cfg (.ok ())] }

/-- SET_CONFIG with both alarms in −128..127, answered Ok throughout, writes the command, the high alarm, the low alarm
and the configuration byte; the low alarm need not be below the high one (R211), and the alarm bytes hold the operands as
whole degrees (R93). -/
def Obligations.SetConfigCompletes : Prop :=
  ∀ (a : Addr) (lo hi : Word16) (r : Res) (s : State) (rs : List (Answer Presence)) (as : List (Answer Unit)),
    Ready s a 5 rs as → -128 ≤ lo.toInt → lo.toInt ≤ 127 → -128 ≤ hi.toInt → hi.toInt ≤ 127 →
    exec (.setConfig a lo hi r) s = .next
      { finished [] s with
        bus := ⟨rs, as, s.bus.bytes, s.bus.bits⟩
        trace := s.trace ++ opened a ++
          [.write s.cfg.cmdWriteSp (.ok ()), .write (loByte hi) (.ok ()), .write (loByte lo) (.ok ()),
           .write (((resCode s.cfg r).setWidth 8 <<< 5) ||| s.cfg.cfgReservedValue) (.ok ())] } ∧
    alarmDegrees (loByte hi) = hi.toInt ∧ alarmDegrees (loByte lo) = lo.toInt

/-- COPY_SCRATCHPAD, answered Ok and its delay ended, completes with the delay as its last event, having waited at
least `P_EEPROM_WRITE_DELAY_MS` milliseconds (R23, R212). The delay end is an input of the model (log entry 4). -/
def Obligations.CopyScratchpadCompletesAfterTheDelay : Prop :=
  ∀ (a : Addr) (s : State) (rs : List (Answer Presence)) (as : List (Answer Unit)) (extra : Nat) (ends : List Nat),
    Ready s a 2 rs as → s.timer.ends = extra :: ends →
    exec (.copyScratchpad a) s = .next
      { finished [] s with
        bus := ⟨rs, as, s.bus.bytes, s.bus.bits⟩
        timer := ⟨ends, s.timer.waitedUs + (1000 * s.cfg.eepromWriteDelayMs.toNat + extra)⟩
        trace := s.trace ++ opened a ++ [.write s.cfg.cmdCopySp (.ok ()), .delayMs s.cfg.eepromWriteDelayMs] }

/-- RECALL_EEPROM without polling, answered Ok and its delay ended, completes with the delay as its last event, having
waited at least `P_RECALL_DELAY_MS` milliseconds (R23, R213). The delay end is an input of the model (log entry 4). -/
def Obligations.RecallEepromCompletesAfterTheDelay : Prop :=
  ∀ (a : Addr) (s : State) (rs : List (Answer Presence)) (as : List (Answer Unit)) (extra : Nat) (ends : List Nat),
    s.cfg.recallPoll = false → Ready s a 2 rs as → s.timer.ends = extra :: ends →
    exec (.recallEeprom a) s = .next
      { finished [] s with
        bus := ⟨rs, as, s.bus.bytes, s.bus.bits⟩
        timer := ⟨ends, s.timer.waitedUs + (1000 * s.cfg.recallDelayMs.toNat + extra)⟩
        trace := s.trace ++ opened a ++ [.write s.cfg.cmdRecall (.ok ()), .delayMs s.cfg.recallDelayMs] }

/-- RECALL_EEPROM with polling: if `n` polls answer 0 and the next answers 1, within the limit, it completes after
`n + 1` polls; if as many polls as the limit all answer 0, it ends in BusError (R213). -/
def Obligations.RecallEepromPollsUntilDone : Prop :=
  ∀ (a : Addr) (s : State) (rs : List (Answer Presence)) (as : List (Answer Unit)) (bits : List (Answer (BitVec 1)))
    (n : Nat), s.cfg.recallPoll = true → Ready s a 2 rs as →
    (n < s.cfg.recallPollLimit.toNat → s.bus.bits = List.replicate n (.ok 0) ++ .ok 1 :: bits →
      exec (.recallEeprom a) s = .next
        { finished [] s with
          bus := ⟨rs, as, s.bus.bytes, bits⟩
          trace := s.trace ++ opened a ++ .write s.cfg.cmdRecall (.ok ()) ::
            (List.replicate n (.readBit (.ok 0)) ++ [.readBit (.ok 1)]) }) ∧
    (n = s.cfg.recallPollLimit.toNat → s.bus.bits = List.replicate n (.ok 0) ++ bits →
      exec (.recallEeprom a) s = .next
        { failedWith .busError s with
          bus := ⟨rs, as, s.bus.bytes, bits⟩
          trace := s.trace ++ opened a ++ .write s.cfg.cmdRecall (.ok ()) :: List.replicate n (.readBit (.ok 0)) })

/-- READ_POWER, answered Ok and with a bit, answers that bit as a byte: 0x00 or 0x01 (R214). -/
def Obligations.ReadPowerAnswersTheBit : Prop :=
  ∀ (a : Addr) (p : BitVec 1) (s : State) (rs : List (Answer Presence)) (as : List (Answer Unit))
    (bits : List (Answer (BitVec 1))), Ready s a 2 rs as → s.bus.bits = .ok p :: bits →
    exec (.readPower a) s = .next
      { finished [if p = 1 then 0x01 else 0x00] s with
        bus := ⟨rs, as, s.bus.bytes, bits⟩
        trace := s.trace ++ opened a ++ [.write s.cfg.cmdReadPwr (.ok ()), .readBit (.ok p)] }

/-! ## Command sequencer: errors and the bus phase -/

/-- R201: every addressed request with an address of another family ends in WrongFamilyError, and SET_CONFIG with an
alarm outside −128..127 in OutOfRangeError, with an empty trace and no answer taken; the family check comes first. -/
def Obligations.ChecksComeBeforeTheBus : Prop :=
  ∀ (i : Instr) (a : Addr) (s : State), s.st = .idle → addressOf i = some a →
    (a.a0 ≠ s.cfg.familyCode → exec i s = .next (failedWith .wrongFamilyError s)) ∧
    (a.a0 = s.cfg.familyCode → ∀ lo hi r, i = .setConfig a lo hi r →
      (lo.toInt < -128 ∨ 127 < lo.toInt ∨ hi.toInt < -128 ∨ 127 < hi.toInt) →
      exec i s = .next (failedWith .outOfRangeError s))

/-- A bus request ends in BusError at the first primitive whose answer fails, wherever in its row that is (a bus reset not
answered Present, an `Err` to a selection, a skip, a command or data byte, a read, a read-bit or a poll): where the
answers ready are those of the events `es`, all of them successes and no poll among them done, then the failing one of
`e`, then others, the request takes these and no more, its trace ends with `e`, `rx` holds the bytes read before it and no
other, and nothing else changes (R202, R203, R204, R208, R261, R269). -/
def Obligations.FailedPrimitiveIsBusError : Prop :=
  ∀ (i : Instr) (s : State) (es : List Event) (e : Event) (left : Transport), s.st = .idle →
    isBusRequest i = true → checksPass s.cfg i = true →
    (es ++ [e]).map eventPrim <+: (sequenceRow s.cfg i).map stepPrim →
    (∀ x ∈ es, eventOk x = true ∧ x ≠ .readBit (.ok 1)) → eventOk e = false →
    s.bus = (es ++ [e]).foldr putBack left →
    exec i s = .next
      { failedWith .busError s with rx := receivedIn es, bus := left, trace := s.trace ++ es ++ [e] }

/-- The bus phase: from IDLE, a bus request that passes its checks issues primitives in the order of its row of the
sequence table, from its start; the answers its events record are those the transport had ready, in that order, and what
it has not taken stays; every event but the last succeeds, and none but the last is a read-bit of 1; the bytes read stand
in `rx`. An event that fails ends the request in BusError, nothing else changed; a request that has not completed has
issued exactly `step` primitives, none of which failed, and is blocked at the next one of its row, whose answer is not
ready; one that has completed otherwise has issued its whole row, or, polling, up to the first 1 (R22, R64, R200, R203,
R204, R208, R213, R217, R261, R269). That a request stands blocked between two steps, and that a delay's end is an input, is the
model's choice (log entries 2 and 4). A request resumed while BUSY is BlockedRequestResumes' matter. -/
def Obligations.BusPhaseFollowsTheSequenceTable : Prop :=
  ∀ (i : Instr) (s t : State), s.st = .idle → isBusRequest i = true → checksPass s.cfg i = true →
    exec i s = .next t →
    ∃ (es : List Event) (late : List Nat), t.trace = s.trace ++ es ∧
      s.bus = es.foldr putBack t.bus ∧ TimerPassed es late s.timer t.timer ∧ t.rx = receivedIn es ∧
      es.map eventPrim <+: (sequenceRow s.cfg i).map stepPrim ∧
      (∀ e ∈ es.dropLast, eventOk e = true ∧ e ≠ .readBit (.ok 1)) ∧
      ((∃ e ∈ es, eventOk e = false) →
        t = { failedWith .busError s with rx := t.rx, bus := t.bus, timer := s.timer, trace := t.trace }) ∧
      (t.st = .busy →
        t = { s.accept i with step := es.length, rx := t.rx, bus := t.bus, timer := t.timer, trace := t.trace } ∧
        (∀ e ∈ es, eventOk e = true ∧ e ≠ .readBit (.ok 1)) ∧
        ∃ p, (sequenceRow s.cfg i)[es.length]? = some p ∧ t.portOut = some (stepPrim p) ∧ Unanswered (stepPrim p) t) ∧
      (t.st = .idle → (∀ e ∈ es, eventOk e = true) →
        es.map eventPrim = (sequenceRow s.cfg i).map stepPrim ∨
        (s.cfg.recallPoll = true ∧ (∃ a, i = .recallEeprom a) ∧ es.getLast? = some (.readBit (.ok 1))))

/-- The events a request's row allows, from IDLE: only START_CONV_ALL skips; no request selects an address but its own, and
the second event of every other bus request, if it comes to one, is that selection (R53); a delay is issued only by
COPY_SCRATCHPAD and RECALL_EEPROM, and never in microseconds (R23). -/
def Obligations.SelectionAndDelayDiscipline : Prop :=
  ∀ (i : Instr) (s t : State) (es : List Event), s.st = .idle → exec i s = .next t → t.trace = s.trace ++ es →
    (∀ a, isBusRequest i = true → addressOf i = some a → 2 ≤ es.length → ∃ x, es[1]? = some (.select a x)) ∧
    ∀ e ∈ es,
      (∀ x, e = .skip x → i = .startConvAll) ∧
      (∀ a x, e = .select a x → addressOf i = some a) ∧
      (∀ n, e ≠ .delayUs n) ∧
      (∀ n, e = .delayMs n → ∃ a, i = .copyScratchpad a ∨ i = .recallEeprom a)

/-- READ_DATA's trace is READ_SCRATCHPAD's for the same answers, and so is the status; only the result differs
(R209). -/
def Obligations.ReadDataTracesAsReadScratchpad : Prop :=
  ∀ (a : Addr) (s t u : State), s.st = .idle →
    exec (.readScratchpad a) s = .next t → exec (.readData a) s = .next u →
    u.trace = t.trace ∧ u.st = t.st ∧ u.step = t.step ∧ u.rx = t.rx ∧ u.respStatus = t.respStatus

/-- R267: from IDLE, a decoded request that has completed ended in OK or in an error the table marks for it. -/
def Obligations.RequestsEndOnlyInTheirStatuses : Prop :=
  ∀ (i : Instr) (s t : State), s.st = .idle → exec i s = .next t → t.st = .idle →
    t.respStatus = some .ok ∨ ∃ e ∈ possibleErrors i, t.respStatus = some (.error e)

/-- What a request leaves alone, in every state: the parameters, the reset input, the host's frames; the CRC register
unless the request computes a CRC; `rx` unless it is accepted or reads a scratchpad; the trace and the transport's
answers if it is no bus request; the timing port unless it is COPY_SCRATCHPAD or RECALL_EEPROM. -/
def Obligations.RequestFrame : Prop :=
  ∀ (i : Instr) (s t : State), exec i s = .next t →
    t.cfg = s.cfg ∧ t.rst = s.rst ∧ t.frames = s.frames ∧
    (usesNoCrc i = true → t.crc = s.crc ∧ t.freeCtr = s.freeCtr) ∧
    (s.st = .busy → ¬ isScratchpadRead i → t.rx = s.rx) ∧
    (isBusRequest i = false → t.trace = s.trace ∧ t.bus = s.bus) ∧
    ((∀ a, i ≠ .copyScratchpad a ∧ i ≠ .recallEeprom a) → t.timer = s.timer)

/-! ## The machine -/

/-- In IDLE, with `rst` deasserted, a step takes the frame on the host port and runs the request it spells. -/
def Obligations.StepRunsTheDecodedRequest : Prop :=
  ∀ (s : State) (f : List Byte) (rest : List (List Byte)) (i : Instr), s.rst = false → s.st = .idle →
    s.frames = f :: rest → decodeFrame s.cfg f = .ok i → step s = exec i { s with frames := rest }

/-- A frame that spells no request completes at once with IllegalRequest, an empty trace and no answer taken (R85,
R266). That `rx` is unwritten after it is the model's reading (log entry 9). -/
def Obligations.IllegalFrameCompletesAtOnce : Prop :=
  ∀ (s : State) (f : List Byte) (rest : List (List Byte)) (why : Reject), s.rst = false → s.st = .idle →
    s.frames = f :: rest → decodeFrame s.cfg f = .error why →
    step s = .next (failedWith .illegalRequest { s with frames := rest })

/-- While BUSY a step goes on with the latched request, and the host's frames are held (R21, R25). -/
def Obligations.BusyStepHoldsTheFrames : Prop :=
  ∀ (s : State) (i : Instr), s.rst = false → s.st = .busy → s.req = some i →
    step s = exec i s ∧ ∀ t, step s = .next t → t.frames = s.frames

/-- With no frame offered the core waits (R290). -/
def Obligations.IdleCoreWaits : Prop :=
  ∀ s : State, s.rst = false → s.st = .idle → s.frames = [] → step s = .next s

/-- R290 and R291: `rst` puts every register of the core at its reset value, whatever it is doing, writes no response
and issues nothing. That `crc` is then 0x00 is the model's choice (log entry 6), and that the ports' inputs stay is
too (log entry 10). -/
def Obligations.ResetAbandonsTheRequest : Prop :=
  ∀ s : State, s.rst = true →
    step s = .next
      { s with
        rst := false, st := .idle, step := 0, respValid := false, req := none, rx := rxEmpty, crc := State.reset.crc,
        respStatus := none, respValue := none }

/-- R38: the reset values of the core's registers that the spec gives. -/
def Obligations.ResetStateValues : Prop :=
  State.reset.st = .idle ∧ State.reset.req = none ∧ State.reset.step = 0 ∧ (∀ j : Fin 9, State.reset.rx[j] = none) ∧
  State.reset.respValid = false ∧ State.reset.respStatus = none ∧ State.reset.respValue = none ∧
  State.reset.reqReady = true

/-- R86 and R88: the host reads the status code and then the result bytes; after an error, the code alone; with no
response, the read faults. -/
def Obligations.ResponseFrameIsStatusThenValue : Prop :=
  ∀ (s : State) (v : List Byte) (e : ErrorKind),
    (s.respond v).responseFrame = .ok (0x00 :: v) ∧
    (s.raise e).responseFrame = .ok [errorCode e] ∧ (s.raise e).readValue = .error .respNoValue ∧
    (∀ i, (s.accept i).responseFrame = .error .respNoValue) ∧
    [ErrorKind.busError, .checksumError, .malformedConfigError, .wrongFamilyError, .outOfRangeError,
      .illegalRequest].map errorCode = [0x01, 0x02, 0x03, 0x04, 0x05, 0x06]

/-- The invariant holds at reset. That the parameters there meet R8 is so of R8's defaults, which the model takes (log entry
14, PRESUMED). -/
def Obligations.ResetStateIsSafe : Prop := State.reset.Inv

/-- A step from a state with the invariant answers a next state, and that state has it too: no run from a safe state
stops, `step` stays inside the row of the sequence table, `rx` holds exactly the bytes received, and the response
registers agree (R24 to R31). -/
def Obligations.StepKeepsTheInvariant : Prop :=
  ∀ s : State, s.Inv → ∃ t, step s = .next t ∧ t.Inv

/-- From IDLE every request answers a next state, whatever the answers: errors are statuses, not stops (R260). -/
def Obligations.IdleRequestsNeverStop : Prop :=
  ∀ (i : Instr) (s : State), s.st = .idle → ∃ t, exec i s = .next t

/-- No step writes a parameter, and the trace only grows: the events of a run are in one total order (R35, R64). -/
def Obligations.StepsKeepParametersAndExtendTheTrace : Prop :=
  ∀ s t : State, step s = .next t → t.cfg = s.cfg ∧ ∃ es, t.trace = s.trace ++ es

/-- No request depends on an earlier one: two states that are alike, however they differ in what earlier requests left
(the response, the CRC register, the trace, and in IDLE every sequencer register), take the same step: the states after
it are alike again, the same events are added, and the registers agree once a request has been taken or has ended, or
`rst` has been (R32, R70). -/
def Obligations.RequestsDependOnNoEarlierRequest : Prop :=
  ∀ s s' t t' : State, Alike s s' →
    (∀ i, exec i s = .next t → exec i s' = .next t' →
      Alike t t' ∧ SameEvents s s' t t' ∧ (s.st = .idle ∨ t.st = .idle → SameRegisters t t')) ∧
    (s'.rst = s.rst → s'.frames = s.frames → step s = .next t → step s' = .next t' →
      Alike t t' ∧ t'.rst = t.rst ∧ t'.frames = t.frames ∧ SameEvents s s' t t' ∧
      ((s.st = .idle ∧ s.frames ≠ []) ∨ (s.st = .busy ∧ t.st = .idle) ∨ s.rst = true → SameRegisters t t'))

/-- A request that blocks and goes on when more answers come ends as if they had been ready from the start: where the
transport pauses, which is where the model cuts a request into steps (log entry 2), makes no difference (R59, R64). -/
def Obligations.BlockedRequestResumes : Prop :=
  ∀ (i : Instr) (s t : State) (more : Transport) (ends : List Nat), s.st = .idle → exec i s = .next t →
    t.st = .busy → exec i (supply more ends t) = exec i (supply more ends s)

/-! ## The reference responder (environment) -/

/-- A reference device's scratchpad is all-or-nothing: a write whose data phase is cut short by a bus reset before its
third byte changes nothing but the device's place in the bus sequence, and one whose next data byte fails, be it the
third, changes no byte of the scratchpad (R61, R75). That the reset leaves a recall going on is the model's choice (log
entry 17). -/
def Obligations.CutShortWriteChangesNothing : Prop :=
  ∀ (c : Config) (x : DevDraw) (d t : Device) (data : List Byte), d.phase = .receiving [] → data.length < 3 →
    t = data.foldl (fun d b => devTurn c x (.writeByte b) d) d →
    devTurn c x .reset t = { d with phase := .off } ∧
    ∀ b : Byte, (devFailed c x (.writeByte b) t).sp = d.sp ∧
      devTurn c x .reset (devFailed c x (.writeByte b) t) = { d with phase := .off }

/-- R302 with one reference device: a write of the scratchpad by WRITE_SCRATCHPAD or SET_CONFIG, and then READ_SCRATCHPAD of
the same device, both complete with OK. The read answers the written TH and TL, the temperature bytes unchanged, the
resolution of the written byte and the device's CRC; byte 4 is the written byte with the device's reserved bits, which
is the written byte itself where SET_CONFIG wrote it. No conversion and no recall is under way, and the steps' draws
are any in which the transport answers no `Err`. The device is environment (log entries 17 and 21). -/
def Obligations.WrittenConfigurationReadsBack : Prop :=
  ∀ (s : State) (d : Device) (i : Instr) (th tl b : Byte) (r : Res) (xs ys : List StepDraw),
    s.cfg.wf → s.rst = false → s.st = .idle → s.bus = ⟨[], [], [], []⟩ → s.timer.ends = [] →
    d.wf s.cfg → d.phase ≠ .undefined → d.conv = none → d.recallLeft = none →
    WritesScratchpad s.cfg d.addr i th tl b → resCode s.cfg r = b.extractLsb' 5 2 →
    s.frames = [encode i, encode (.readScratchpad d.addr)] →
    xs.length = 7 → ys.length = 13 → NoErr xs → NoErr ys →
    (∀ lo hi r', i = .setConfig d.addr lo hi r' → devStoredCfg s.cfg b = b ∧ r' = r) ∧
    ∃ y z, System.run xs ⟨s, [d]⟩ = some y ∧ y.core.st = .idle ∧ y.core.respStatus = some .ok ∧
      System.run ys y = some z ∧ z.core.st = .idle ∧ z.core.frames = [] ∧ z.core.respStatus = some .ok ∧
      z.devices.map (·.sp) = [spWritten s.cfg th tl b d.sp] ∧
      z.core.rx = received (spWritten s.cfg th tl b d.sp) ∧
      z.core.respValue = some [d.sp.b0, d.sp.b1, th, tl, resByte r, (spWritten s.cfg th tl b d.sp).b8]

/-- COPY_SCRATCHPAD completes the copy at a reference device whose EEPROM write time is within `P_EEPROM_WRITE_DELAY_MS`: when
the request completes, the EEPROM holds the scratchpad's bytes 2 to 4 as they were, and no write is under way (R75,
R299). The device is environment (log entries 17 and 21). -/
def Obligations.CopyIsDoneWhenTheRequestCompletes : Prop :=
  ∀ (s : State) (d : Device) (xs : List StepDraw),
    s.cfg.wf → s.rst = false → s.st = .idle → s.bus = ⟨[], [], [], []⟩ → s.timer.ends = [] →
    d.wf s.cfg → d.phase ≠ .undefined → d.writeUs ≤ 1000 * s.cfg.eepromWriteDelayMs.toNat → d.recallLeft = none →
    s.frames = [encode (.copyScratchpad d.addr)] → xs.length = 5 → NoErr xs →
    ∃ y, System.run xs ⟨s, [d]⟩ = some y ∧ y.core.st = .idle ∧ y.core.respStatus = some .ok ∧
      y.devices.map (fun e => (e.ee, e.copy)) = [(⟨d.sp.b2, d.sp.b3, d.sp.b4⟩, none)]
end

