-- ==== Sys2Proof/Laws/State.lean ====
section
/-! SUPPORT. One lemma per field per update of State: what each named operation writes, and that it leaves every other
field alone. -/

namespace Sys2Proof.Machine

variable (s : State)

/-! ## accept -/

@[simp] theorem accept_cfg (i : Instr) : (s.accept i).cfg = s.cfg := rfl
@[simp] theorem accept_st (i : Instr) : (s.accept i).st = .busy := rfl
@[simp] theorem accept_req (i : Instr) : (s.accept i).req = some i := rfl
@[simp] theorem accept_step (i : Instr) : (s.accept i).step = 0 := rfl
@[simp] theorem accept_rx (i : Instr) : (s.accept i).rx = rxEmpty := rfl
@[simp] theorem accept_crc (i : Instr) : (s.accept i).crc = s.crc := rfl
@[simp] theorem accept_respValid (i : Instr) : (s.accept i).respValid = false := rfl
@[simp] theorem accept_respStatus (i : Instr) : (s.accept i).respStatus = none := rfl
@[simp] theorem accept_respValue (i : Instr) : (s.accept i).respValue = none := rfl
@[simp] theorem accept_rst (i : Instr) : (s.accept i).rst = s.rst := rfl
@[simp] theorem accept_frames (i : Instr) : (s.accept i).frames = s.frames := rfl
@[simp] theorem accept_bus (i : Instr) : (s.accept i).bus = s.bus := rfl
@[simp] theorem accept_timer (i : Instr) : (s.accept i).timer = s.timer := rfl
@[simp] theorem accept_trace (i : Instr) : (s.accept i).trace = s.trace := rfl
@[simp] theorem accept_freeCtr (i : Instr) : (s.accept i).freeCtr = s.freeCtr := rfl

/-! ## respond -/

@[simp] theorem respond_cfg (v : List Byte) : (s.respond v).cfg = s.cfg := rfl
@[simp] theorem respond_st (v : List Byte) : (s.respond v).st = .idle := rfl
@[simp] theorem respond_req (v : List Byte) : (s.respond v).req = none := rfl
@[simp] theorem respond_step (v : List Byte) : (s.respond v).step = 0 := rfl
@[simp] theorem respond_rx (v : List Byte) : (s.respond v).rx = s.rx := rfl
@[simp] theorem respond_crc (v : List Byte) : (s.respond v).crc = s.crc := rfl
@[simp] theorem respond_respValid (v : List Byte) : (s.respond v).respValid = true := rfl
@[simp] theorem respond_respStatus (v : List Byte) : (s.respond v).respStatus = some .ok := rfl
@[simp] theorem respond_respValue (v : List Byte) : (s.respond v).respValue = some v := rfl
@[simp] theorem respond_rst (v : List Byte) : (s.respond v).rst = s.rst := rfl
@[simp] theorem respond_frames (v : List Byte) : (s.respond v).frames = s.frames := rfl
@[simp] theorem respond_bus (v : List Byte) : (s.respond v).bus = s.bus := rfl
@[simp] theorem respond_timer (v : List Byte) : (s.respond v).timer = s.timer := rfl
@[simp] theorem respond_trace (v : List Byte) : (s.respond v).trace = s.trace := rfl
@[simp] theorem respond_freeCtr (v : List Byte) : (s.respond v).freeCtr = s.freeCtr := rfl

/-! ## raise -/

@[simp] theorem raise_cfg (e : ErrorKind) : (s.raise e).cfg = s.cfg := rfl
@[simp] theorem raise_st (e : ErrorKind) : (s.raise e).st = .idle := rfl
@[simp] theorem raise_req (e : ErrorKind) : (s.raise e).req = none := rfl
@[simp] theorem raise_step (e : ErrorKind) : (s.raise e).step = 0 := rfl
@[simp] theorem raise_rx (e : ErrorKind) : (s.raise e).rx = s.rx := rfl
@[simp] theorem raise_crc (e : ErrorKind) : (s.raise e).crc = s.crc := rfl
@[simp] theorem raise_respValid (e : ErrorKind) : (s.raise e).respValid = true := rfl
@[simp] theorem raise_respStatus (e : ErrorKind) : (s.raise e).respStatus = some (.error e) := rfl
@[simp] theorem raise_respValue (e : ErrorKind) : (s.raise e).respValue = none := rfl
@[simp] theorem raise_rst (e : ErrorKind) : (s.raise e).rst = s.rst := rfl
@[simp] theorem raise_frames (e : ErrorKind) : (s.raise e).frames = s.frames := rfl
@[simp] theorem raise_bus (e : ErrorKind) : (s.raise e).bus = s.bus := rfl
@[simp] theorem raise_timer (e : ErrorKind) : (s.raise e).timer = s.timer := rfl
@[simp] theorem raise_trace (e : ErrorKind) : (s.raise e).trace = s.trace := rfl
@[simp] theorem raise_freeCtr (e : ErrorKind) : (s.raise e).freeCtr = s.freeCtr := rfl

/-! ## rejectFrame -/

@[simp] theorem rejectFrame_cfg : s.rejectFrame.cfg = s.cfg := rfl
@[simp] theorem rejectFrame_st : s.rejectFrame.st = .idle := rfl
@[simp] theorem rejectFrame_req : s.rejectFrame.req = none := rfl
@[simp] theorem rejectFrame_step : s.rejectFrame.step = 0 := rfl
@[simp] theorem rejectFrame_rx : s.rejectFrame.rx = rxEmpty := rfl
@[simp] theorem rejectFrame_crc : s.rejectFrame.crc = s.crc := rfl
@[simp] theorem rejectFrame_respValid : s.rejectFrame.respValid = true := rfl
@[simp] theorem rejectFrame_respStatus : s.rejectFrame.respStatus = some (.error .illegalRequest) := rfl
@[simp] theorem rejectFrame_respValue : s.rejectFrame.respValue = none := rfl
@[simp] theorem rejectFrame_rst : s.rejectFrame.rst = s.rst := rfl
@[simp] theorem rejectFrame_frames : s.rejectFrame.frames = s.frames := rfl
@[simp] theorem rejectFrame_bus : s.rejectFrame.bus = s.bus := rfl
@[simp] theorem rejectFrame_timer : s.rejectFrame.timer = s.timer := rfl
@[simp] theorem rejectFrame_trace : s.rejectFrame.trace = s.trace := rfl
@[simp] theorem rejectFrame_freeCtr : s.rejectFrame.freeCtr = s.freeCtr := rfl

/-! ## takeReset -/

@[simp] theorem takeReset_cfg : s.takeReset.cfg = s.cfg := rfl
@[simp] theorem takeReset_st : s.takeReset.st = .idle := rfl
@[simp] theorem takeReset_req : s.takeReset.req = none := rfl
@[simp] theorem takeReset_step : s.takeReset.step = 0 := rfl
@[simp] theorem takeReset_rx : s.takeReset.rx = rxEmpty := rfl
@[simp] theorem takeReset_crc : s.takeReset.crc = State.reset.crc := rfl
@[simp] theorem takeReset_respValid : s.takeReset.respValid = false := rfl
@[simp] theorem takeReset_respStatus : s.takeReset.respStatus = none := rfl
@[simp] theorem takeReset_respValue : s.takeReset.respValue = none := rfl
@[simp] theorem takeReset_rst : s.takeReset.rst = false := rfl
@[simp] theorem takeReset_frames : s.takeReset.frames = s.frames := rfl
@[simp] theorem takeReset_bus : s.takeReset.bus = s.bus := rfl
@[simp] theorem takeReset_timer : s.takeReset.timer = s.timer := rfl
@[simp] theorem takeReset_trace : s.takeReset.trace = s.trace := rfl
@[simp] theorem takeReset_freeCtr : s.takeReset.freeCtr = s.freeCtr := rfl

/-! ## record -/

@[simp] theorem record_cfg (e : Event) : (s.record e).cfg = s.cfg := rfl
@[simp] theorem record_st (e : Event) : (s.record e).st = s.st := rfl
@[simp] theorem record_req (e : Event) : (s.record e).req = s.req := rfl
@[simp] theorem record_step (e : Event) : (s.record e).step = s.step := rfl
@[simp] theorem record_rx (e : Event) : (s.record e).rx = s.rx := rfl
@[simp] theorem record_crc (e : Event) : (s.record e).crc = s.crc := rfl
@[simp] theorem record_respValid (e : Event) : (s.record e).respValid = s.respValid := rfl
@[simp] theorem record_respStatus (e : Event) : (s.record e).respStatus = s.respStatus := rfl
@[simp] theorem record_respValue (e : Event) : (s.record e).respValue = s.respValue := rfl
@[simp] theorem record_rst (e : Event) : (s.record e).rst = s.rst := rfl
@[simp] theorem record_frames (e : Event) : (s.record e).frames = s.frames := rfl
@[simp] theorem record_bus (e : Event) : (s.record e).bus = s.bus := rfl
@[simp] theorem record_timer (e : Event) : (s.record e).timer = s.timer := rfl
@[simp] theorem record_trace (e : Event) : (s.record e).trace = s.trace ++ [e] := rfl
@[simp] theorem record_freeCtr (e : Event) : (s.record e).freeCtr = s.freeCtr := rfl

/-! ## advance -/

@[simp] theorem advance_cfg : s.advance.cfg = s.cfg := rfl
@[simp] theorem advance_st : s.advance.st = s.st := rfl
@[simp] theorem advance_req : s.advance.req = s.req := rfl
@[simp] theorem advance_step : s.advance.step = s.step + 1 := rfl
@[simp] theorem advance_rx : s.advance.rx = s.rx := rfl
@[simp] theorem advance_crc : s.advance.crc = s.crc := rfl
@[simp] theorem advance_respValid : s.advance.respValid = s.respValid := rfl
@[simp] theorem advance_respStatus : s.advance.respStatus = s.respStatus := rfl
@[simp] theorem advance_respValue : s.advance.respValue = s.respValue := rfl
@[simp] theorem advance_rst : s.advance.rst = s.rst := rfl
@[simp] theorem advance_frames : s.advance.frames = s.frames := rfl
@[simp] theorem advance_bus : s.advance.bus = s.bus := rfl
@[simp] theorem advance_timer : s.advance.timer = s.timer := rfl
@[simp] theorem advance_trace : s.advance.trace = s.trace := rfl
@[simp] theorem advance_freeCtr : s.advance.freeCtr = s.freeCtr := rfl

/-! ## writeRx -/

@[simp] theorem writeRx_cfg (i : Fin 9) (b : Byte) : (s.writeRx i b).cfg = s.cfg := rfl
@[simp] theorem writeRx_st (i : Fin 9) (b : Byte) : (s.writeRx i b).st = s.st := rfl
@[simp] theorem writeRx_req (i : Fin 9) (b : Byte) : (s.writeRx i b).req = s.req := rfl
@[simp] theorem writeRx_step (i : Fin 9) (b : Byte) : (s.writeRx i b).step = s.step := rfl
@[simp] theorem writeRx_rx (i : Fin 9) (b : Byte) : (s.writeRx i b).rx = s.rx.set i (some b) := rfl
@[simp] theorem writeRx_crc (i : Fin 9) (b : Byte) : (s.writeRx i b).crc = s.crc := rfl
@[simp] theorem writeRx_respValid (i : Fin 9) (b : Byte) : (s.writeRx i b).respValid = s.respValid := rfl
@[simp] theorem writeRx_respStatus (i : Fin 9) (b : Byte) : (s.writeRx i b).respStatus = s.respStatus := rfl
@[simp] theorem writeRx_respValue (i : Fin 9) (b : Byte) : (s.writeRx i b).respValue = s.respValue := rfl
@[simp] theorem writeRx_rst (i : Fin 9) (b : Byte) : (s.writeRx i b).rst = s.rst := rfl
@[simp] theorem writeRx_frames (i : Fin 9) (b : Byte) : (s.writeRx i b).frames = s.frames := rfl
@[simp] theorem writeRx_bus (i : Fin 9) (b : Byte) : (s.writeRx i b).bus = s.bus := rfl
@[simp] theorem writeRx_timer (i : Fin 9) (b : Byte) : (s.writeRx i b).timer = s.timer := rfl
@[simp] theorem writeRx_trace (i : Fin 9) (b : Byte) : (s.writeRx i b).trace = s.trace := rfl
@[simp] theorem writeRx_freeCtr (i : Fin 9) (b : Byte) : (s.writeRx i b).freeCtr = s.freeCtr := rfl

/-! ## setResets -/

@[simp] theorem setResets_cfg (q : List (Answer Presence)) : (s.setResets q).cfg = s.cfg := rfl
@[simp] theorem setResets_st (q : List (Answer Presence)) : (s.setResets q).st = s.st := rfl
@[simp] theorem setResets_req (q : List (Answer Presence)) : (s.setResets q).req = s.req := rfl
@[simp] theorem setResets_step (q : List (Answer Presence)) : (s.setResets q).step = s.step := rfl
@[simp] theorem setResets_rx (q : List (Answer Presence)) : (s.setResets q).rx = s.rx := rfl
@[simp] theorem setResets_crc (q : List (Answer Presence)) : (s.setResets q).crc = s.crc := rfl
@[simp] theorem setResets_respValid (q : List (Answer Presence)) : (s.setResets q).respValid = s.respValid := rfl
@[simp] theorem setResets_respStatus (q : List (Answer Presence)) : (s.setResets q).respStatus = s.respStatus := rfl
@[simp] theorem setResets_respValue (q : List (Answer Presence)) : (s.setResets q).respValue = s.respValue := rfl
@[simp] theorem setResets_rst (q : List (Answer Presence)) : (s.setResets q).rst = s.rst := rfl
@[simp] theorem setResets_frames (q : List (Answer Presence)) : (s.setResets q).frames = s.frames := rfl
@[simp] theorem setResets_bus (q : List (Answer Presence)) : (s.setResets q).bus = { s.bus with resets := q } := rfl
@[simp] theorem setResets_timer (q : List (Answer Presence)) : (s.setResets q).timer = s.timer := rfl
@[simp] theorem setResets_trace (q : List (Answer Presence)) : (s.setResets q).trace = s.trace := rfl
@[simp] theorem setResets_freeCtr (q : List (Answer Presence)) : (s.setResets q).freeCtr = s.freeCtr := rfl

/-! ## setAcks -/

@[simp] theorem setAcks_cfg (q : List (Answer Unit)) : (s.setAcks q).cfg = s.cfg := rfl
@[simp] theorem setAcks_st (q : List (Answer Unit)) : (s.setAcks q).st = s.st := rfl
@[simp] theorem setAcks_req (q : List (Answer Unit)) : (s.setAcks q).req = s.req := rfl
@[simp] theorem setAcks_step (q : List (Answer Unit)) : (s.setAcks q).step = s.step := rfl
@[simp] theorem setAcks_rx (q : List (Answer Unit)) : (s.setAcks q).rx = s.rx := rfl
@[simp] theorem setAcks_crc (q : List (Answer Unit)) : (s.setAcks q).crc = s.crc := rfl
@[simp] theorem setAcks_respValid (q : List (Answer Unit)) : (s.setAcks q).respValid = s.respValid := rfl
@[simp] theorem setAcks_respStatus (q : List (Answer Unit)) : (s.setAcks q).respStatus = s.respStatus := rfl
@[simp] theorem setAcks_respValue (q : List (Answer Unit)) : (s.setAcks q).respValue = s.respValue := rfl
@[simp] theorem setAcks_rst (q : List (Answer Unit)) : (s.setAcks q).rst = s.rst := rfl
@[simp] theorem setAcks_frames (q : List (Answer Unit)) : (s.setAcks q).frames = s.frames := rfl
@[simp] theorem setAcks_bus (q : List (Answer Unit)) : (s.setAcks q).bus = { s.bus with acks := q } := rfl
@[simp] theorem setAcks_timer (q : List (Answer Unit)) : (s.setAcks q).timer = s.timer := rfl
@[simp] theorem setAcks_trace (q : List (Answer Unit)) : (s.setAcks q).trace = s.trace := rfl
@[simp] theorem setAcks_freeCtr (q : List (Answer Unit)) : (s.setAcks q).freeCtr = s.freeCtr := rfl

/-! ## setBytes -/

@[simp] theorem setBytes_cfg (q : List (Answer Byte)) : (s.setBytes q).cfg = s.cfg := rfl
@[simp] theorem setBytes_st (q : List (Answer Byte)) : (s.setBytes q).st = s.st := rfl
@[simp] theorem setBytes_req (q : List (Answer Byte)) : (s.setBytes q).req = s.req := rfl
@[simp] theorem setBytes_step (q : List (Answer Byte)) : (s.setBytes q).step = s.step := rfl
@[simp] theorem setBytes_rx (q : List (Answer Byte)) : (s.setBytes q).rx = s.rx := rfl
@[simp] theorem setBytes_crc (q : List (Answer Byte)) : (s.setBytes q).crc = s.crc := rfl
@[simp] theorem setBytes_respValid (q : List (Answer Byte)) : (s.setBytes q).respValid = s.respValid := rfl
@[simp] theorem setBytes_respStatus (q : List (Answer Byte)) : (s.setBytes q).respStatus = s.respStatus := rfl
@[simp] theorem setBytes_respValue (q : List (Answer Byte)) : (s.setBytes q).respValue = s.respValue := rfl
@[simp] theorem setBytes_rst (q : List (Answer Byte)) : (s.setBytes q).rst = s.rst := rfl
@[simp] theorem setBytes_frames (q : List (Answer Byte)) : (s.setBytes q).frames = s.frames := rfl
@[simp] theorem setBytes_bus (q : List (Answer Byte)) : (s.setBytes q).bus = { s.bus with bytes := q } := rfl
@[simp] theorem setBytes_timer (q : List (Answer Byte)) : (s.setBytes q).timer = s.timer := rfl
@[simp] theorem setBytes_trace (q : List (Answer Byte)) : (s.setBytes q).trace = s.trace := rfl
@[simp] theorem setBytes_freeCtr (q : List (Answer Byte)) : (s.setBytes q).freeCtr = s.freeCtr := rfl

/-! ## setBits -/

@[simp] theorem setBits_cfg (q : List (Answer (BitVec 1))) : (s.setBits q).cfg = s.cfg := rfl
@[simp] theorem setBits_st (q : List (Answer (BitVec 1))) : (s.setBits q).st = s.st := rfl
@[simp] theorem setBits_req (q : List (Answer (BitVec 1))) : (s.setBits q).req = s.req := rfl
@[simp] theorem setBits_step (q : List (Answer (BitVec 1))) : (s.setBits q).step = s.step := rfl
@[simp] theorem setBits_rx (q : List (Answer (BitVec 1))) : (s.setBits q).rx = s.rx := rfl
@[simp] theorem setBits_crc (q : List (Answer (BitVec 1))) : (s.setBits q).crc = s.crc := rfl
@[simp] theorem setBits_respValid (q : List (Answer (BitVec 1))) : (s.setBits q).respValid = s.respValid := rfl
@[simp] theorem setBits_respStatus (q : List (Answer (BitVec 1))) : (s.setBits q).respStatus = s.respStatus := rfl
@[simp] theorem setBits_respValue (q : List (Answer (BitVec 1))) : (s.setBits q).respValue = s.respValue := rfl
@[simp] theorem setBits_rst (q : List (Answer (BitVec 1))) : (s.setBits q).rst = s.rst := rfl
@[simp] theorem setBits_frames (q : List (Answer (BitVec 1))) : (s.setBits q).frames = s.frames := rfl
@[simp] theorem setBits_bus (q : List (Answer (BitVec 1))) : (s.setBits q).bus = { s.bus with bits := q } := rfl
@[simp] theorem setBits_timer (q : List (Answer (BitVec 1))) : (s.setBits q).timer = s.timer := rfl
@[simp] theorem setBits_trace (q : List (Answer (BitVec 1))) : (s.setBits q).trace = s.trace := rfl
@[simp] theorem setBits_freeCtr (q : List (Answer (BitVec 1))) : (s.setBits q).freeCtr = s.freeCtr := rfl

/-! ## endDelay -/

@[simp] theorem endDelay_cfg (n : Word16) (x : Nat) (q : List Nat) : (s.endDelay n x q).cfg = s.cfg := rfl
@[simp] theorem endDelay_st (n : Word16) (x : Nat) (q : List Nat) : (s.endDelay n x q).st = s.st := rfl
@[simp] theorem endDelay_req (n : Word16) (x : Nat) (q : List Nat) : (s.endDelay n x q).req = s.req := rfl
@[simp] theorem endDelay_step (n : Word16) (x : Nat) (q : List Nat) : (s.endDelay n x q).step = s.step := rfl
@[simp] theorem endDelay_rx (n : Word16) (x : Nat) (q : List Nat) : (s.endDelay n x q).rx = s.rx := rfl
@[simp] theorem endDelay_crc (n : Word16) (x : Nat) (q : List Nat) : (s.endDelay n x q).crc = s.crc := rfl
@[simp] theorem endDelay_respValid (n : Word16) (x : Nat) (q : List Nat) : (s.endDelay n x q).respValid = s.respValid := rfl
@[simp] theorem endDelay_respStatus (n : Word16) (x : Nat) (q : List Nat) : (s.endDelay n x q).respStatus = s.respStatus := rfl
@[simp] theorem endDelay_respValue (n : Word16) (x : Nat) (q : List Nat) : (s.endDelay n x q).respValue = s.respValue := rfl
@[simp] theorem endDelay_rst (n : Word16) (x : Nat) (q : List Nat) : (s.endDelay n x q).rst = s.rst := rfl
@[simp] theorem endDelay_frames (n : Word16) (x : Nat) (q : List Nat) : (s.endDelay n x q).frames = s.frames := rfl
@[simp] theorem endDelay_bus (n : Word16) (x : Nat) (q : List Nat) : (s.endDelay n x q).bus = s.bus := rfl
@[simp] theorem endDelay_timer (n : Word16) (x : Nat) (q : List Nat) : (s.endDelay n x q).timer = ⟨q, s.timer.waitedUs + (1000 * n.toNat + x)⟩ := rfl
@[simp] theorem endDelay_trace (n : Word16) (x : Nat) (q : List Nat) : (s.endDelay n x q).trace = s.trace := rfl
@[simp] theorem endDelay_freeCtr (n : Word16) (x : Nat) (q : List Nat) : (s.endDelay n x q).freeCtr = s.freeCtr := rfl

/-! ## crcStart -/

@[simp] theorem crcStart_cfg : s.crcStart.cfg = s.cfg := rfl
@[simp] theorem crcStart_st : s.crcStart.st = s.st := rfl
@[simp] theorem crcStart_req : s.crcStart.req = s.req := rfl
@[simp] theorem crcStart_step : s.crcStart.step = s.step := rfl
@[simp] theorem crcStart_rx : s.crcStart.rx = s.rx := rfl
@[simp] theorem crcStart_crc : s.crcStart.crc = 0x00 := rfl
@[simp] theorem crcStart_respValid : s.crcStart.respValid = s.respValid := rfl
@[simp] theorem crcStart_respStatus : s.crcStart.respStatus = s.respStatus := rfl
@[simp] theorem crcStart_respValue : s.crcStart.respValue = s.respValue := rfl
@[simp] theorem crcStart_rst : s.crcStart.rst = s.rst := rfl
@[simp] theorem crcStart_frames : s.crcStart.frames = s.frames := rfl
@[simp] theorem crcStart_bus : s.crcStart.bus = s.bus := rfl
@[simp] theorem crcStart_timer : s.crcStart.timer = s.timer := rfl
@[simp] theorem crcStart_trace : s.crcStart.trace = s.trace := rfl
@[simp] theorem crcStart_freeCtr : s.crcStart.freeCtr = s.freeCtr := rfl

/-! ## crcFeed -/

@[simp] theorem crcFeed_cfg (b : Byte) : (s.crcFeed b).cfg = s.cfg := rfl
@[simp] theorem crcFeed_st (b : Byte) : (s.crcFeed b).st = s.st := rfl
@[simp] theorem crcFeed_req (b : Byte) : (s.crcFeed b).req = s.req := rfl
@[simp] theorem crcFeed_step (b : Byte) : (s.crcFeed b).step = s.step := rfl
@[simp] theorem crcFeed_rx (b : Byte) : (s.crcFeed b).rx = s.rx := rfl
@[simp] theorem crcFeed_crc (b : Byte) : (s.crcFeed b).crc = crc8Byte s.crc b := rfl
@[simp] theorem crcFeed_respValid (b : Byte) : (s.crcFeed b).respValid = s.respValid := rfl
@[simp] theorem crcFeed_respStatus (b : Byte) : (s.crcFeed b).respStatus = s.respStatus := rfl
@[simp] theorem crcFeed_respValue (b : Byte) : (s.crcFeed b).respValue = s.respValue := rfl
@[simp] theorem crcFeed_rst (b : Byte) : (s.crcFeed b).rst = s.rst := rfl
@[simp] theorem crcFeed_frames (b : Byte) : (s.crcFeed b).frames = s.frames := rfl
@[simp] theorem crcFeed_bus (b : Byte) : (s.crcFeed b).bus = s.bus := rfl
@[simp] theorem crcFeed_timer (b : Byte) : (s.crcFeed b).timer = s.timer := rfl
@[simp] theorem crcFeed_trace (b : Byte) : (s.crcFeed b).trace = s.trace := rfl
@[simp] theorem crcFeed_freeCtr (b : Byte) : (s.crcFeed b).freeCtr = s.freeCtr := rfl

/-! ## crcRelease -/

@[simp] theorem crcRelease_cfg : s.crcRelease.cfg = s.cfg := rfl
@[simp] theorem crcRelease_st : s.crcRelease.st = s.st := rfl
@[simp] theorem crcRelease_req : s.crcRelease.req = s.req := rfl
@[simp] theorem crcRelease_step : s.crcRelease.step = s.step := rfl
@[simp] theorem crcRelease_rx : s.crcRelease.rx = s.rx := rfl
@[simp] theorem crcRelease_crc : s.crcRelease.crc = Config.unspecifiedCrc s.freeCtr := rfl
@[simp] theorem crcRelease_respValid : s.crcRelease.respValid = s.respValid := rfl
@[simp] theorem crcRelease_respStatus : s.crcRelease.respStatus = s.respStatus := rfl
@[simp] theorem crcRelease_respValue : s.crcRelease.respValue = s.respValue := rfl
@[simp] theorem crcRelease_rst : s.crcRelease.rst = s.rst := rfl
@[simp] theorem crcRelease_frames : s.crcRelease.frames = s.frames := rfl
@[simp] theorem crcRelease_bus : s.crcRelease.bus = s.bus := rfl
@[simp] theorem crcRelease_timer : s.crcRelease.timer = s.timer := rfl
@[simp] theorem crcRelease_trace : s.crcRelease.trace = s.trace := rfl
@[simp] theorem crcRelease_freeCtr : s.crcRelease.freeCtr = s.freeCtr + 1 := rfl

end Sys2Proof.Machine
end

