-- ==== Sys2Proof/Laws/Crc.lean ====
section
/-! SUPPORT. The CRC computation on the register is the function `crc8` of R122, and leaves the register unspecified. -/

namespace Sys2Proof.Machine

@[simp] theorem crc8_nil : crc8 [] = 0x00 := rfl

theorem crc8_concat (bytes : List Byte) (b : Byte) : crc8 (bytes ++ [b]) = crc8Byte (crc8 bytes) b := by
  simp [crc8]

theorem foldl_crcFeed (bytes : List Byte) (s : State) :
    bytes.foldl State.crcFeed s = { s with crc := bytes.foldl crc8Byte s.crc } := by
  induction bytes generalizing s with
  | nil => rfl
  | cons b bytes ih => simp [ih, State.crcFeed]

/-- The value read is `crc8` of the bytes; nothing but `crc` and its counter changes (R28, R122). -/
theorem computeCrc_eq (bytes : List Byte) (s : State) : computeCrc bytes s = (crc8 bytes, s.crcRelease) := by
  simp [computeCrc, foldl_crcFeed, State.crcStart, State.crcRelease, crc8]

end Sys2Proof.Machine
end

