-- ==== Sys2Proof/Laws/Operands.lean ====
section
/-! SUPPORT. The small lemmas of the operand forms: bytes of words, resolutions and their bytes and codes. -/

namespace Sys2Proof.Machine

@[simp] theorem word16_loByte_hiByte (w : Word16) : word16 (loByte w) (hiByte w) = w := by
  simp only [word16, loByte, hiByte]
  ext i hi
  simp only [BitVec.getElem_append, BitVec.getElem_extractLsb']
  split <;> simp only [BitVec.getLsbD, ← BitVec.getLsbD_eq_getElem] <;> congr 1 <;> omega

@[simp] theorem loByte_word16 (lo hi : Byte) : loByte (word16 lo hi) = lo := by
  simp only [word16, loByte]
  ext i h
  simp only [BitVec.getElem_extractLsb', BitVec.getLsbD_append]
  rw [if_pos (by omega)]
  simp [BitVec.getLsbD_eq_getElem, h]

@[simp] theorem hiByte_word16 (lo hi : Byte) : hiByte (word16 lo hi) = hi := by
  simp only [word16, hiByte]
  ext i h
  simp only [BitVec.getElem_extractLsb', BitVec.getLsbD_append]
  rw [if_neg (by omega)]
  simp [BitVec.getLsbD_eq_getElem, h]

@[simp] theorem resOfByte_resByte (r : Res) : resOfByte (resByte r) = some r := by
  cases r <;> decide

theorem resByte_of_resOfByte {b : Byte} {r : Res} (h : resOfByte b = some r) : resByte r = b := by
  simpa using List.find?_some h

/-- `P_RES_CODE^-1` undoes `P_RES_CODE`, a bijection (R8). -/
theorem resOfCode_resCode {c : Config} (h : c.wf) (r : Res) : resOfCode c (resCode c r) = some r := by
  have hn := h.2.1
  simp only [List.nodup_cons, List.mem_cons, List.not_mem_nil, or_false, not_or,
    not_false_eq_true] at hn
  obtain ⟨⟨h1, h2, h3⟩, ⟨h4, h5⟩, h6, -⟩ := hn
  cases r <;> simp [resOfCode, resCode, *]

theorem resCode_of_resOfCode {c : Config} {code : BitVec 2} {r : Res} (h : resOfCode c code = some r) :
    resCode c r = code := by
  simpa using List.find?_some h

/-- The alarm byte of a 16-bit operand is its low byte (R10, R93). -/
theorem trunc8_toInt (w : Word16) : trunc8 w.toInt = loByte w := by
  change w.signExtend 8 = _
  rw [BitVec.signExtend_eq_setWidth_of_le _ (by decide)]
  ext i hi
  simp [loByte]

/-- An operand in −128..127 is the whole degrees of its alarm byte (R93). -/
theorem alarmDegrees_loByte {w : Word16} (h1 : -128 ≤ w.toInt) (h2 : w.toInt ≤ 127) :
    alarmDegrees (loByte w) = w.toInt := by
  have hw := w.isLt
  simp only [alarmDegrees, loByte, BitVec.toInt_eq_toNat_cond, BitVec.extractLsb'_toNat] at *
  simp only [Nat.shiftRight_zero] at *
  split at h1 <;> split <;> omega

/-- The alarm byte of the degrees it holds is that byte again (R93). -/
@[simp] theorem trunc8_alarmDegrees (b : Byte) : trunc8 (alarmDegrees b) = b := BitVec.ofInt_toInt

end Sys2Proof.Machine
end

