-- ==== Sys2Proof/Laws/Decode.lean ====
section
/-! SUPPORT. The opcode map is unambiguous, and each operand form's decoder undoes its encoding. -/

namespace Sys2Proof

open Sys2Proof.Machine

/-- No two rows of R83 share an OP byte. -/
theorem opcodeOfByte_op (o : Opcode) : opcodeOfByte (opcodeRow o).op = some o := by
  cases o <;> decide

theorem op_of_opcodeOfByte {b : Byte} {o : Opcode} (h : opcodeOfByte b = some o) : (opcodeRow o).op = b := by
  simpa using List.find?_some h

@[simp] theorem fieldRes_resByte (r : Res) : fieldRes (resByte r) = .ok r := by simp [fieldRes]

@[simp] theorem fieldFR_resByte (r : Res) : fieldFR [resByte r] = .ok r := by simp [fieldFR]

@[simp] theorem fieldRaw9_rawBytes (raw : Raw9) : fieldRaw9 (rawBytes raw) = .ok raw := rfl

@[simp] theorem fieldFA_addrBytes (a : Addr) : fieldFA (addrBytes a) = .ok a := rfl

/-- The length byte of a SEQ operand that fits is its length (R81). -/
theorem seqFits_length {c : Config} {bytes : List Byte} (h : seqFits c bytes = true) :
    (BitVec.ofNat 8 bytes.length).toNat = bytes.length := by
  have h1 : bytes.length ≤ c.seqMax.toNat := by simpa [seqFits] using h
  have h2 := c.seqMax.isLt
  simp only [BitVec.toNat_ofNat]
  exact Nat.mod_eq_of_lt (by omega)

theorem fieldSeq_seqField {c : Config} {bytes : List Byte} (h : seqFits c bytes = true) :
    fieldSeq c (seqField bytes) = .ok bytes := by
  have h1 : bytes.length ≤ c.seqMax.toNat := by simpa [seqFits] using h
  have h2 := seqFits_length h
  have h3 : ¬ c.seqMax < BitVec.ofNat 8 bytes.length := by rw [BitVec.lt_def, h2]; omega
  simp [fieldSeq, seqField, h3, h2]

end Sys2Proof
end

