-- ==== Sys2Proof/Laws/Ops.lean ====
section
/-! SUPPORT. What each shared operation can do: one lemma for issuing a primitive, one inversion lemma for running a row,
and the one form every request's meaning has. Later proofs cite these instead of unfolding the operations. -/

namespace Sys2Proof.Machine

/-! ## Issuing a primitive -/

/-- The bus phase leaves every register of the core alone but `step` and `rx`, and the host port too. -/
structure OnlyBusPhase (s t : State) : Prop where
  cfg        : t.cfg = s.cfg
  st         : t.st = s.st
  req        : t.req = s.req
  crc        : t.crc = s.crc
  respValid  : t.respValid = s.respValid
  respStatus : t.respStatus = s.respStatus
  respValue  : t.respValue = s.respValue
  rst        : t.rst = s.rst
  frames     : t.frames = s.frames
  freeCtr    : t.freeCtr = s.freeCtr

theorem OnlyBusPhase.refl (s : State) : OnlyBusPhase s s := ⟨rfl, rfl, rfl, rfl, rfl, rfl, rfl, rfl, rfl, rfl⟩

theorem OnlyBusPhase.trans {s t u : State} (h : OnlyBusPhase s t) (k : OnlyBusPhase t u) : OnlyBusPhase s u :=
  ⟨k.cfg.trans h.cfg, k.st.trans h.st, k.req.trans h.req, k.crc.trans h.crc, k.respValid.trans h.respValid,
   k.respStatus.trans h.respStatus, k.respValue.trans h.respValue, k.rst.trans h.rst, k.frames.trans h.frames,
   k.freeCtr.trans h.freeCtr⟩

/-- `rx` after a step was answered with event `e`: only a read into `rx[i]` writes it (R27). -/
def rxAfter (p : SeqStep) (e : Event) (rx : Vector (Option Byte) 9) : Vector (Option Byte) 9 :=
  match p, e with
  | .readInto i, .read (.ok b) => rx.set i (some b)
  | _, _ => rx

/-- A failed primitive: its event, a failing one, is recorded, and nothing else of the core changes (R203, R217). -/
theorem issue_failed {p : SeqStep} {s t : State} (h : issue p s = .failed t) :
    OnlyBusPhase s t ∧ t.step = s.step ∧ t.rx = s.rx ∧
      ∃ e, eventPrim e = stepPrim p ∧ eventOk e = false ∧ t.trace = s.trace ++ [e] := by
  cases p <;> simp only [issue, issueReset, issueAck, issueRead, issueReadBit, issueDelay] at h <;> split at h <;>
    cases h <;> exact ⟨⟨rfl, rfl, rfl, rfl, rfl, rfl, rfl, rfl, rfl, rfl⟩, rfl, rfl, _, rfl, rfl, rfl⟩

/-- An answered primitive: its event, a succeeding one, is recorded, `step` advances, and of the rest only `rx` can
change (R26, R27, R204). -/
theorem issue_answered {p : SeqStep} {s t : State} {bit : Option (BitVec 1)} (h : issue p s = .answered bit t) :
    OnlyBusPhase s t ∧ t.step = s.step + 1 ∧
      ∃ e, eventPrim e = stepPrim p ∧ eventOk e = true ∧ t.trace = s.trace ++ [e] ∧ t.rx = rxAfter p e s.rx := by
  cases p <;> simp only [issue, issueReset, issueAck, issueRead, issueReadBit, issueDelay] at h <;> split at h <;>
    cases h <;> exact ⟨⟨rfl, rfl, rfl, rfl, rfl, rfl, rfl, rfl, rfl, rfl⟩, rfl, _, rfl, rfl, rfl, rfl⟩

/-- A primitive waits exactly while it has no answer ready (R11, R64). -/
theorem issue_waiting {p : SeqStep} {s : State} : issue p s = .waiting ↔ Unanswered (stepPrim p) s := by
  cases p <;> simp only [issue, issueReset, issueAck, issueRead, issueReadBit, issueDelay, stepPrim, Unanswered] <;>
    split <;> simp_all

/-- A failed primitive took its answer, the one its event records, from the front of its queue, and no delay end (R71). -/
theorem issue_failed_taken {p : SeqStep} {s t : State} (h : issue p s = .failed t) :
    t.timer = s.timer ∧ ∃ e, t.trace = s.trace ++ [e] ∧ s.bus = putBack e t.bus := by
  cases p <;> simp only [issue, issueReset, issueAck, issueRead, issueReadBit, issueDelay] at h <;> split at h <;>
    cases h <;> exact ⟨rfl, _, rfl, by rename_i hq; simp [putBack, ← hq]⟩

/-- An answered primitive took its answer, the one its event records, from the front of its queue (R71). -/
theorem issue_answered_taken {p : SeqStep} {s t : State} {bit : Option (BitVec 1)} (h : issue p s = .answered bit t) :
    ∃ e, t.trace = s.trace ++ [e] ∧ s.bus = putBack e t.bus := by
  cases p <;> simp only [issue, issueReset, issueAck, issueRead, issueReadBit, issueDelay] at h <;> split at h <;>
    cases h <;> exact ⟨_, rfl, by first | rfl | (rename_i hq; simp [putBack, ← hq])⟩

/-! ## Running a row -/

/-- `Ran row last s row' last' s'`: from `s`, the steps of `row` before `row'` were issued and answered, none of them
ended the row, and the bit of the last of them is `last'`. -/
inductive Ran : List SeqStep → Option (BitVec 1) → State → List SeqStep → Option (BitVec 1) → State → Prop where
  | here (row : List SeqStep) (last : Option (BitVec 1)) (s : State) : Ran row last s row last s
  | step {p : SeqStep} {rest row' : List SeqStep} {last bit last' : Option (BitVec 1)} {s s' t : State}
      (answered : issue p s = .answered bit s') (goesOn : endsRow p bit = false)
      (more : Ran rest bit s' row' last' t) : Ran (p :: rest) last s row' last' t

/-- How a run of a row ends: blocked at an unanswered primitive, failed at one, completed by a poll that answered 1,
or completed at the row's end (R200, R203, R213, R217). -/
inductive RanTo (completion : Option (BitVec 1) → State → Result) (row : List SeqStep) (last : Option (BitVec 1))
    (s : State) : Result → Prop where
  | blocked {p : SeqStep} {rest : List SeqStep} {bit : Option (BitVec 1)} {t : State}
      (ran : Ran row last s (p :: rest) bit t) (unanswered : issue p t = .waiting) : RanTo completion row last s (.next t)
  | failed {p : SeqStep} {rest : List SeqStep} {bit : Option (BitVec 1)} {t t' : State}
      (ran : Ran row last s (p :: rest) bit t) (fails : issue p t = .failed t') :
      RanTo completion row last s (.next (t'.raise .busError))
  | polled {p : SeqStep} {rest : List SeqStep} {bit bit' : Option (BitVec 1)} {t t' : State}
      (ran : Ran row last s (p :: rest) bit t) (answered : issue p t = .answered bit' t')
      (ends : endsRow p bit' = true) : RanTo completion row last s (completion bit' t')
  | finished {bit : Option (BitVec 1)} {t : State} (ran : Ran row last s [] bit t) :
      RanTo completion row last s (completion bit t)

theorem RanTo.cons {completion : Option (BitVec 1) → State → Result} {p : SeqStep} {rest : List SeqStep}
    {last bit : Option (BitVec 1)} {s s' : State} {out : Result} (answered : issue p s = .answered bit s')
    (goesOn : endsRow p bit = false) (more : RanTo completion rest bit s' out) :
    RanTo completion (p :: rest) last s out := by
  cases more with
  | blocked ran unanswered => exact .blocked (.step answered goesOn ran) unanswered
  | failed ran fails => exact .failed (.step answered goesOn ran) fails
  | polled ran answered' ends => exact .polled (.step answered goesOn ran) answered' ends
  | finished ran => exact .finished (.step answered goesOn ran)

/-- Everything running a row can do. -/
theorem runSteps_cases (completion : Option (BitVec 1) → State → Result) (row : List SeqStep)
    (last : Option (BitVec 1)) (s : State) : RanTo completion row last s (runSteps completion row last s) := by
  induction row generalizing last s with
  | nil => exact .finished (.here _ _ _)
  | cons p rest ih =>
    simp only [runSteps]
    split
    · exact .blocked (.here _ _ _) ‹_›
    · exact .failed (.here _ _ _) ‹_›
    · split
      · exact .polled (.here _ _ _) ‹_› ‹_›
      · exact .cons ‹_› (eq_false_of_ne_true ‹_›) (ih _ _)

/-- Along a row: the events recorded are the row's primitives, all succeeding, `step` counts them, and only the bus
phase's fields change (R64, R204, R217). -/
theorem Ran.effect {row row' : List SeqStep} {last last' : Option (BitVec 1)} {s t : State}
    (h : Ran row last s row' last' t) :
    OnlyBusPhase s t ∧ ∃ done es, row = done ++ row' ∧ t.trace = s.trace ++ es ∧
      es.map eventPrim = done.map stepPrim ∧ (∀ e ∈ es, eventOk e = true) ∧ t.step = s.step + done.length := by
  induction h with
  | here row last s => exact ⟨.refl s, [], [], by simp⟩
  | step answered goesOn more ih =>
    obtain ⟨keep, hstep, e, hp, hok, htr, -⟩ := issue_answered answered
    obtain ⟨keep', done, es, hrow, htr', hes, hoks, hst⟩ := ih
    refine ⟨keep.trans keep', _ :: done, e :: es, by rw [hrow]; rfl, by simp [htr', htr], by simp [hp, hes], ?_, ?_⟩
    · simpa [hok] using hoks
    · simp only [hst, hstep, List.length_cons]; omega

/-- Along a row: the answers taken from the transport are those the events record, in that order (R71). -/
theorem Ran.taken {row row' : List SeqStep} {last last' : Option (BitVec 1)} {s t : State}
    (h : Ran row last s row' last' t) : ∃ es, t.trace = s.trace ++ es ∧ s.bus = es.foldr putBack t.bus := by
  induction h with
  | here => exact ⟨[], by simp⟩
  | step answered _ _ ih =>
    obtain ⟨e, htr, hbus⟩ := issue_answered_taken answered
    obtain ⟨es, htr', hbus'⟩ := ih
    exact ⟨e :: es, by simp [htr', htr], by simp [hbus, hbus']⟩

/-! ## The one form of every meaning -/

/-- The error of the checks before bus I/O, if they fail: the family check first, then the alarm range (R201, R268). -/
def precheck (c : Config) (i : Instr) : Option ErrorKind :=
  if (addressOf i).all (familyOk c) then if alarmsFit i then none else some .outOfRangeError
  else some .wrongFamilyError

/-- The completion of each request, on the bit its last step read and the state at the end of its row (R200). -/
def completionOf (i : Instr) (last : Option (BitVec 1)) (s : State) : Result :=
  match i with
  | .crcCompute bytes => complete [crc8 bytes] s.crcRelease
  | .crcVerify bytes =>
    match bytes.getLast? with
    | none => complete [boolByte false] s
    | some b => complete [boolByte (crc8 bytes.dropLast == b)] s.crcRelease
  | .spDecode raw => .next (decodeScratchpad scratchpadRecord raw s)
  | .spEncodeConfig r => complete [encodeConfig s.cfg r] s
  | .sensorData raw => .next (decodeScratchpad sensorRecord raw s)
  | .tempConvert t r => complete (le16 (maskTemp t r)) s
  | .convTime r => complete (le32 (conversionTime r)) s
  | .regBits r => complete [registerBits s.cfg r] s
  | .fromRegBits b =>
    match fromRegisterBits s.cfg b with
    | some r => complete [resByte r] s
    | none => .next (s.raise .malformedConfigError)
  | .checkAddress _ => complete [] s
  | .startConvAddr _ => completeEmpty last s
  | .startConvAll => completeEmpty last s
  | .readScratchpad _ => completeRead scratchpadRecord last s
  | .writeScratchpad _ _ _ _ => completeEmpty last s
  | .copyScratchpad _ => completeEmpty last s
  | .recallEeprom _ => completeRecall last s
  | .readPower _ => completePower last s
  | .readData _ => completeRead sensorRecord last s
  | .setConfig _ _ _ _ => completeEmpty last s

/-- Every request's meaning: enter, check, run its row of the sequence table, complete (R200). -/
theorem exec_eq (i : Instr) (s : State) :
    exec i s = enter i s fun s =>
      match precheck s.cfg i with
      | some e => .next (s.raise e)
      | none => runRow (sequenceRow s.cfg i) (completionOf i) s := by
  cases i <;>
    simp only [exec, execCrcCompute, execCrcVerify, execSpDecode, execSpEncodeConfig, execSensorData, execTempConvert,
      execConvTime, execRegBits, execFromRegBits, execCheckAddress, execStartConvAddr, execStartConvAll,
      execReadScratchpad, execWriteScratchpad, execCopyScratchpad, execRecallEeprom, execReadPower, execReadData,
      execSetConfig, requireFamily, requireAlarmRange, precheck, addressOf, alarmsFit, sequenceRow, computeCrc_eq,
      Option.all_none, Option.all_some, if_true] <;>
    congr 1 <;> funext s <;> (repeat' split) <;> simp_all [runRow, runSteps, completionOf] <;> rfl

/-! ## The decode of a scratchpad -/

/-- Everything the decode of a scratchpad can do: the CRC register is used, then ChecksumError on a bad CRC, then
MalformedConfigError on a bad configuration byte, then the record (R142, R144 to R146). -/
theorem decodeScratchpad_cases (record : Raw9 → Res → List Byte) (raw : Raw9) (s : State) :
    (crc8 (rawData raw) ≠ rawCrc raw ∧ decodeScratchpad record raw s = s.crcRelease.raise .checksumError) ∨
    (crc8 (rawData raw) = rawCrc raw ∧ cfgDecode s.cfg (rawCfg raw) = none ∧
      decodeScratchpad record raw s = s.crcRelease.raise .malformedConfigError) ∨
    (∃ r, crc8 (rawData raw) = rawCrc raw ∧ cfgDecode s.cfg (rawCfg raw) = some r ∧
      decodeScratchpad record raw s = s.crcRelease.respond (record raw r)) := by
  simp only [decodeScratchpad, computeCrc_eq, crcRelease_cfg]
  by_cases hc : crc8 (rawData raw) = rawCrc raw
  · cases hd : cfgDecode s.cfg (rawCfg raw) with
    | none => exact .inr (.inl ⟨hc, rfl, by simp [hc]⟩)
    | some r => exact .inr (.inr ⟨r, hc, rfl, by simp [hc]⟩)
  · exact .inl ⟨hc, by simp [hc]⟩

/-! ## Inversion of a meaning, and what a completion leaves -/

/-- Everything a request's meaning can do, from any state: it is not taken, its checks fail, or its row runs from
`step` (R21, R200, R201, R204). -/
theorem exec_cases (i : Instr) (s : State) :
    (∃ s', (s.st = .idle ∧ s' = s.accept i ∨ s.st = .busy ∧ s.req = some i ∧ s' = s) ∧
      ((∃ e, precheck s.cfg i = some e ∧ exec i s = .next (s'.raise e)) ∨
        (precheck s.cfg i = none ∧
          RanTo (completionOf i) ((sequenceRow s.cfg i).drop s'.step) none s' (exec i s)))) ∨
    (s.st = .busy ∧ s.req ≠ some i ∧ exec i s = .next s) := by
  rw [exec_eq]
  unfold enter
  split
  · rename_i h
    refine .inl ⟨_, .inl ⟨h, rfl⟩, ?_⟩
    simp only [accept_cfg]
    cases hp : precheck s.cfg i with
    | some e => exact .inl ⟨e, rfl, rfl⟩
    | none => exact .inr ⟨rfl, runSteps_cases (completionOf i) _ none (s.accept i)⟩
  · rename_i h
    split
    · rename_i hr
      refine .inl ⟨_, .inr ⟨h, hr, rfl⟩, ?_⟩
      beta_reduce
      cases hp : precheck s.cfg i with
      | some e => exact .inl ⟨e, rfl, rfl⟩
      | none => exact .inr ⟨rfl, runSteps_cases (completionOf i) _ none s⟩
    · exact .inr ⟨h, ‹_›, rfl⟩

/-- What every completion leaves: IDLE, the response registers in agreement with one of the request's statuses, and
everything outside the sequencer and the CRC register as it was (R24 to R31, R267). -/
theorem completionOf_next {i : Instr} {bit : Option (BitVec 1)} {s t : State}
    (h : completionOf i bit s = .next t) :
    (t.st = .idle ∧ t.req = none ∧ t.step = 0) ∧
    (t.cfg = s.cfg ∧ t.rx = s.rx ∧ t.rst = s.rst ∧ t.frames = s.frames ∧ t.bus = s.bus ∧ t.timer = s.timer ∧
      t.trace = s.trace) ∧
    ResponseOk t ∧ (t.respStatus = some .ok ∨ ∃ e ∈ possibleErrors i, t.respStatus = some (.error e)) := by
  have decoded : ∀ record raw, .next (decodeScratchpad record raw s) = (.next t : Result) →
      ErrorKind.checksumError ∈ possibleErrors i → ErrorKind.malformedConfigError ∈ possibleErrors i →
      (t.st = .idle ∧ t.req = none ∧ t.step = 0) ∧
      (t.cfg = s.cfg ∧ t.rx = s.rx ∧ t.rst = s.rst ∧ t.frames = s.frames ∧ t.bus = s.bus ∧ t.timer = s.timer ∧
        t.trace = s.trace) ∧
      ResponseOk t ∧ (t.respStatus = some .ok ∨ ∃ e ∈ possibleErrors i, t.respStatus = some (.error e)) := by
    intro record raw ht h1 h2
    cases ht
    rcases decodeScratchpad_cases record raw s with ⟨-, h⟩ | ⟨-, -, h⟩ | ⟨r, -, -, h⟩ <;>
      rw [h] <;> simp [ResponseOk, h1, h2]
  cases i <;> simp only [completionOf, complete, completeEmpty, completeRecall, completePower, completeRead] at h
  case spDecode => exact decoded _ _ h (by simp [possibleErrors]) (by simp [possibleErrors])
  case sensorData => exact decoded _ _ h (by simp [possibleErrors]) (by simp [possibleErrors])
  case readScratchpad =>
    split at h
    · exact decoded _ _ h (by simp [possibleErrors]) (by simp [possibleErrors])
    · cases h
  case readData =>
    split at h
    · exact decoded _ _ h (by simp [possibleErrors]) (by simp [possibleErrors])
    · cases h
  all_goals (repeat' split at h) <;> cases h <;> simp [possibleErrors, ResponseOk]

end Sys2Proof.Machine
end

