-- ==== Sys2Proof/Laws/PerInstr.lean ====
section
/-! SUPPORT. The statement families that are proved constructor by constructor. -/

namespace Sys2Proof.Laws.FrameLength

open Sys2Proof.Machine

/-- A request's frame has the length its OP gives, with the length byte for format FS (30_encoding.md R84). -/
def Statement (i : Instr) : Prop :=
  ∀ c : Config, i.wf c = true →
    (encode i).length = formatLength (opcodeRow (opcodeOf i)).fmt ((encode i).getD 1 0).toNat

theorem seq {c : Config} {bytes : List Byte} (h : seqFits c bytes = true) (op : Byte) :
    (op :: seqField bytes).length = formatLength .FS ((op :: seqField bytes).getD 1 0).toNat := by
  simp only [seqField, List.length_cons, List.getD_cons_succ, List.getD_cons_zero, formatLength, seqFits_length h]
  omega

theorem crcCompute (bytes : List Byte) : Statement (.crcCompute bytes) := fun _ h => seq h _
theorem crcVerify (bytes : List Byte) : Statement (.crcVerify bytes) := fun _ h => seq h _
theorem spDecode (raw : Raw9) : Statement (.spDecode raw) := fun _ _ => rfl
theorem spEncodeConfig (r : Res) : Statement (.spEncodeConfig r) := fun _ _ => rfl
theorem sensorData (raw : Raw9) : Statement (.sensorData raw) := fun _ _ => rfl
theorem tempConvert (t : Word16) (r : Res) : Statement (.tempConvert t r) := fun _ _ => rfl
theorem convTime (r : Res) : Statement (.convTime r) := fun _ _ => rfl
theorem regBits (r : Res) : Statement (.regBits r) := fun _ _ => rfl
theorem fromRegBits (b : Byte) : Statement (.fromRegBits b) := fun _ _ => rfl
theorem checkAddress (a : Addr) : Statement (.checkAddress a) := fun _ _ => rfl
theorem startConvAddr (a : Addr) : Statement (.startConvAddr a) := fun _ _ => rfl
theorem startConvAll : Statement .startConvAll := fun _ _ => rfl
theorem readScratchpad (a : Addr) : Statement (.readScratchpad a) := fun _ _ => rfl
theorem writeScratchpad (a : Addr) (th tl cfg : Byte) : Statement (.writeScratchpad a th tl cfg) := fun _ _ => rfl
theorem copyScratchpad (a : Addr) : Statement (.copyScratchpad a) := fun _ _ => rfl
theorem recallEeprom (a : Addr) : Statement (.recallEeprom a) := fun _ _ => rfl
theorem readPower (a : Addr) : Statement (.readPower a) := fun _ _ => rfl
theorem readData (a : Addr) : Statement (.readData a) := fun _ _ => rfl
theorem setConfig (a : Addr) (lo hi : Word16) (r : Res) : Statement (.setConfig a lo hi r) := fun _ _ => rfl

end Sys2Proof.Laws.FrameLength
end

