-- ==== Sys2Proof/Laws/Responder.lean ====
section
/-! SUPPORT. What the operations of the reference responder keep: every device stays a reference device (R72), whatever the
draws; and the small lemmas of time passing at a device. -/

namespace Sys2Proof.Machine

/-! ## The seal (R72) -/

/-- A sealed scratchpad carries its own CRC. -/
theorem sealScratchpad_b8 (sp : Raw9) : (sealScratchpad sp).b8 = crc8 (rawData (sealScratchpad sp)) := rfl

@[simp] theorem spWritten_b8 (c : Config) (th tl b : Byte) (sp : Raw9) :
    (spWritten c th tl b sp).b8 = crc8 (rawData (spWritten c th tl b sp)) := rfl

@[simp] theorem spRecalled_b8 (ee : Eeprom) (sp : Raw9) :
    (spRecalled ee sp).b8 = crc8 (rawData (spRecalled ee sp)) := rfl

@[simp] theorem spConverted_b8 (w : Word16) (sp : Raw9) :
    (spConverted w sp).b8 = crc8 (rawData (spConverted w sp)) := rfl

/-- A read sees a scratchpad that carries its own CRC, whichever word is drawn (R76). -/
theorem spSeen_b8 (seesNew : Bool) (conv : Option Conversion) {sp : Raw9} (h : sp.b8 = crc8 (rawData sp)) :
    (spSeen seesNew conv sp).b8 = crc8 (rawData (spSeen seesNew conv sp)) := by
  unfold spSeen
  split
  · exact h
  · split
    · exact spConverted_b8 _ _
    · exact h

/-! ## Time at a device -/

@[simp] theorem recallAfter_none (us : Nat) (ee : Eeprom) (copy : Option EepromCopy) (sp : Raw9) :
    recallAfter us ee copy sp none = (sp, none) := rfl

@[simp] theorem convAfter_none (us : Nat) (sp : Raw9) : convAfter us sp none = (sp, none) := rfl

@[simp] theorem copyAfter_none (us : Nat) (ee : Eeprom) : copyAfter us ee none = (ee, none) := rfl

@[simp] theorem devElapse_addr (us : Nat) (d : Device) : (devElapse us d).addr = d.addr := rfl

@[simp] theorem devElapse_phase (us : Nat) (d : Device) : (devElapse us d).phase = d.phase := rfl

/-- Where no conversion and no recall is under way, time changes no byte of the scratchpad. -/
theorem devElapse_sp (us : Nat) {d : Device} (hc : d.conv = none) (hr : d.recallLeft = none) :
    (devElapse us d).sp = d.sp := by
  simp [devElapse, hc, hr]

theorem recallAfter_b8 (us : Nat) (ee : Eeprom) (copy : Option EepromCopy) {sp : Raw9} (left : Option Nat)
    (h : sp.b8 = crc8 (rawData sp)) :
    (recallAfter us ee copy sp left).1.b8 = crc8 (rawData (recallAfter us ee copy sp left).1) := by
  unfold recallAfter
  split
  · exact h
  · split
    · exact spRecalled_b8 _ _
    · exact h

theorem convAfter_b8 (us : Nat) {sp : Raw9} (conv : Option Conversion) (h : sp.b8 = crc8 (rawData sp)) :
    (convAfter us sp conv).1.b8 = crc8 (rawData (convAfter us sp conv).1) := by
  unfold convAfter
  split
  · exact h
  · split
    · exact spConverted_b8 _ _
    · exact h

/-- A conversion's end changes no byte from 2 to 4 (R54, R76). -/
@[simp] theorem convAfter_settings (us : Nat) (sp : Raw9) (conv : Option Conversion) :
    (convAfter us sp conv).1.b2 = sp.b2 ∧ (convAfter us sp conv).1.b3 = sp.b3 ∧
    (convAfter us sp conv).1.b4 = sp.b4 := by
  unfold convAfter
  split
  · exact ⟨rfl, rfl, rfl⟩
  · split <;> exact ⟨rfl, rfl, rfl⟩

theorem devElapse_wf {c : Config} (us : Nat) {d : Device} (h : d.wf c) : (devElapse us d).wf c :=
  ⟨h.1, convAfter_b8 us _ (recallAfter_b8 us _ _ _ h.2)⟩

/-! ## The bus at a device -/

/-- Everything a written byte can do to the scratchpad: nothing, or the third data byte of a write commits it (R61, R75). -/
theorem devWrite_cases (c : Config) (x : DevDraw) (b : Byte) (d : Device) :
    (devWrite c x b d).addr = d.addr ∧
    ((devWrite c x b d).sp = d.sp ∨
      ∃ th tl, d.phase = .receiving [th, tl] ∧ (devWrite c x b d).sp = spWritten c th tl b d.sp) := by
  unfold devWrite devCommand devBroadcast
  split <;> (repeat' split) <;> first | exact ⟨rfl, .inl rfl⟩ | exact ⟨rfl, .inr ⟨_, _, by assumption, rfl⟩⟩

theorem devTurn_wf {c : Config} (x : DevDraw) (p : Prim) {d : Device} (h : d.wf c) : (devTurn c x p d).wf c := by
  cases p with
  | writeByte b =>
    obtain ⟨ha, hs | ⟨th, tl, -, hs⟩⟩ := devWrite_cases c x b d
    · exact ⟨by simpa only [devTurn, ha] using h.1, by simpa only [devTurn, hs] using h.2⟩
    · exact ⟨by simpa only [devTurn, ha] using h.1, by simp only [devTurn, hs, spWritten_b8]⟩
  | readByte => simp only [devTurn]; split <;> exact h
  | readBit =>
    simp only [devTurn]
    split
    · exact ⟨h.1, spRecalled_b8 _ _⟩
    · exact h
  | reset => exact h
  | select a => exact h
  | skip => exact h
  | delayMs n => exact h
  | delayUs n => exact h

/-- Everything a cut primitive can do: what it does when answered, but for the EEPROM and a write under way (R300). -/
theorem devCut_eq (c : Config) (x : DevDraw) (p : Prim) (d : Device) :
    ∃ ee copy, devCut c x p d = { devTurn c x p d with ee := ee, copy := copy } := by
  unfold devCut
  split
  · exact ⟨_, _, rfl⟩
  · exact ⟨_, _, rfl⟩

theorem devCut_wf {c : Config} (x : DevDraw) (p : Prim) {d : Device} (h : d.wf c) : (devCut c x p d).wf c := by
  obtain ⟨ee, copy, he⟩ := devCut_eq c x p d
  rw [he]
  exact devTurn_wf x p h

/-- Everything a failed primitive can do: nothing where it is the third data byte of a write, else what it does when
answered, but for the EEPROM and a write under way (R61, R300). -/
theorem devFailed_cases (c : Config) (x : DevDraw) (p : Prim) (d : Device) :
    (∃ b th tl, p = .writeByte b ∧ d.phase = .receiving [th, tl] ∧ devFailed c x p d = d) ∨
    ((∀ b th tl, p = .writeByte b → d.phase ≠ .receiving [th, tl]) ∧ devFailed c x p d = devCut c x p d) := by
  unfold devFailed
  split
  · rename_i hph
    exact .inl ⟨_, _, _, rfl, hph, rfl⟩
  · rename_i hno
    exact .inr ⟨fun b th tl hp hph => hno b th tl hp hph, rfl⟩

theorem devFailed_wf {c : Config} (x : DevDraw) (p : Prim) {d : Device} (h : d.wf c) : (devFailed c x p d).wf c := by
  rcases devFailed_cases c x p d with ⟨_, _, _, -, -, he⟩ | ⟨-, he⟩
  · rw [he]; exact h
  · rw [he]; exact devCut_wf x p h

/-- A byte that fails changes no byte of the scratchpad, whatever the device was at (R61, R210). -/
theorem devFailed_writeByte_sp (c : Config) (x : DevDraw) (b : Byte) (d : Device) :
    (devFailed c x (.writeByte b) d).sp = d.sp := by
  rcases devFailed_cases c x (.writeByte b) d with ⟨_, _, _, -, -, he⟩ | ⟨hno, he⟩
  · rw [he]
  · obtain ⟨ee, copy, hc⟩ := devCut_eq c x (.writeByte b) d
    rw [he, hc]
    rcases (devWrite_cases c x b d).2 with hs | ⟨th, tl, hph, -⟩
    · exact hs
    · exact absurd hph (hno b th tl rfl)

theorem devAbandoned_wf {c : Config} (x : DevDraw) (core : State) {d : Device} (h : d.wf c) :
    (devAbandoned c x core d).wf c := by
  unfold devAbandoned
  split
  · exact h
  · split <;> exact h
  · split
    · exact devCut_wf x _ h
    · exact h

/-! ## The closed loop -/

theorem System.answer_cfg (x : StepDraw) (y : System) : (y.answer x).core.cfg = y.core.cfg := by
  unfold System.answer
  split
  · rfl
  · split
    · rfl
    · rename_i p _
      cases p <;> rfl

/-- The bus's part of a step keeps every device a reference device (R72). -/
theorem System.answer_wf (x : StepDraw) {y : System} (h : y.wf) : (y.answer x).wf := by
  intro d hd
  rw [System.answer_cfg]
  unfold System.answer at hd
  have key : ∀ (f : Nat → Device → Device), (∀ k e, e.wf y.core.cfg → (f k e).wf y.core.cfg) →
      d ∈ y.devices.mapIdx f → d.wf y.core.cfg := by
    intro f hf hm
    obtain ⟨k, hk, rfl⟩ := List.mem_mapIdx.mp hm
    exact hf _ _ (h _ (List.getElem_mem hk))
  split at hd
  · exact key _ (fun k e he => devElapse_wf _ (devAbandoned_wf _ _ he)) hd
  · split at hd
    · obtain ⟨e, he, rfl⟩ := List.mem_map.mp hd
      exact devElapse_wf _ (h e he)
    · refine key _ (fun k e he => devElapse_wf _ ?_) hd
      split
      · split
        · exact devFailed_wf _ _ he
        · exact he
      · exact devTurn_wf _ _ he

end Sys2Proof.Machine
end

