-- ==== Sys2Proof/Tests/Slice0.lean ====
section
/-! SUPPORT. The model's own tests: frames written out from 30_encoding.md R81 to R83, results and traces taken from the
vectors of 95_test_vectors.md, and for every obligation with hypotheses a concrete instance that meets them. -/

namespace Sys2Proof.Tests

set_option Elab.async false

open Sys2Proof.Machine Sys2Proof.Claims

/-! ## Helpers -/

/-- Address A of 95_test_vectors.md section 1. -/
def addrA : Addr := ⟨0x28, 0xFF, 0x4C, 0x60, 0x91, 0x16, 0x04, 0xB4⟩

/-- Address B: the wrong family. -/
def addrB : Addr := ⟨0x10, 0xFF, 0x4C, 0x60, 0x91, 0x16, 0x04, 0xB4⟩

/-- The power-on scratchpad of 95_test_vectors.md section 1. -/
def rawD1 : Raw9 := ⟨0x50, 0x05, 0x4B, 0x46, 0x7F, 0xFF, 0x0C, 0x10, 0x1C⟩

/-- Vector D14: the CRC byte is off by one. -/
def rawD14 : Raw9 := ⟨0x50, 0x05, 0x4B, 0x46, 0x7F, 0xFF, 0x0C, 0x10, 0x1D⟩

/-- Vector D16: the CRC is good, the configuration byte is not. -/
def rawD16 : Raw9 := ⟨0x50, 0x05, 0x4B, 0x46, 0xFF, 0xFF, 0x0C, 0x10, 0xC5⟩

/-- An IDLE core with the given answers ready. -/
def ready (acks : List (Answer Unit)) (bytes : List Byte) (bits : List (BitVec 1)) (ends : List Nat) : State :=
  { State.reset with bus := ⟨[.ok .present], acks, bytes.map .ok, bits.map .ok⟩, timer := ⟨ends, 0⟩ }

/-- `n` Ok answers. -/
def oks (n : Nat) : List (Answer Unit) := List.replicate n (.ok ())

/-- An IDLE core that polls in RECALL_EEPROM, at most `limit` times. -/
def polling (limit : Word16) (bits : List (BitVec 1)) : State :=
  { ready (oks 2) [] bits [] with cfg := { Config.default with recallPoll := true, recallPollLimit := limit } }

/-- The status, the result bytes and the trace a request leaves. -/
def outcome (r : Result) : Option (Option Status × Option (List Byte) × List Event) :=
  match r with
  | .next t => some (t.respStatus, t.respValue, t.trace)
  | .fault _ => none
  | .refused _ => none

/-- One step on a frame. -/
def onFrame (f : List Byte) (s : State) : Option (Option Status × Option (List Byte) × List Event) :=
  outcome (step { s with frames := [f] })

/-- A frame completes with status OK and the given bytes, with an empty trace. -/
def answers (f : List Byte) (v : List Byte) : Bool := decide (onFrame f State.reset = some (some .ok, some v, []))

/-- A frame ends in an error with an empty trace. -/
def fails (f : List Byte) (e : ErrorKind) : Bool :=
  decide (onFrame f State.reset = some (some (.error e), none, []))

/-- What the default parameters' decoder reads. -/
def decoded (f : List Byte) : Option Instr := (decodeFrame Config.default f).toOption

/-! ## Well-formedness: the ill-formed terms are refused -/

theorem test_wf_crcCompute_too_long : (Instr.crcCompute (List.replicate 256 0)).wf Config.default = false := by decide +kernel
theorem test_wf_crcVerify_too_long : (Instr.crcVerify (List.replicate 256 0)).wf Config.default = false := by decide +kernel
theorem test_wf_seqMax : (Instr.crcCompute [1, 2, 3]).wf { Config.default with seqMax := 2 } = false ∧
    (Instr.crcCompute [1, 2]).wf { Config.default with seqMax := 2 } = true := by decide +kernel
theorem test_wf_longest : (Instr.crcVerify (List.replicate 255 0)).wf Config.default = true := by decide +kernel

/-! ## Decoding: every constructor, from frames written out -/

theorem test_decode_crcCompute : decoded [0x01, 0x02, 0x01, 0x02] = some (.crcCompute [0x01, 0x02]) := by decide +kernel
theorem test_decode_crcVerify : decoded [0x02, 0x02, 0x01, 0x5E] = some (.crcVerify [0x01, 0x5E]) := by decide +kernel
theorem test_decode_spDecode :
    decoded [0x10, 0x50, 0x05, 0x4B, 0x46, 0x7F, 0xFF, 0x0C, 0x10, 0x1C] = some (.spDecode rawD1) := by decide +kernel
theorem test_decode_spEncodeConfig : decoded [0x11, 0x0A] = some (.spEncodeConfig .r10) := by decide +kernel
theorem test_decode_sensorData :
    decoded [0x12, 0x50, 0x05, 0x4B, 0x46, 0x7F, 0xFF, 0x0C, 0x10, 0x1C] = some (.sensorData rawD1) := by decide +kernel
theorem test_decode_tempConvert : decoded [0x20, 0x5F, 0x05, 0x09] = some (.tempConvert 0x055F .r9) := by decide +kernel
theorem test_decode_convTime : decoded [0x30, 0x0C] = some (.convTime .r12) := by decide +kernel
theorem test_decode_regBits : decoded [0x31, 0x0B] = some (.regBits .r11) := by decide +kernel
theorem test_decode_fromRegBits : decoded [0x32, 0x60] = some (.fromRegBits 0x60) := by decide +kernel
theorem test_decode_checkAddress :
    decoded [0x40, 0x28, 0xFF, 0x4C, 0x60, 0x91, 0x16, 0x04, 0xB4] = some (.checkAddress addrA) := by decide +kernel
theorem test_decode_startConvAddr :
    decoded [0x80, 0x10, 0xFF, 0x4C, 0x60, 0x91, 0x16, 0x04, 0xB4] = some (.startConvAddr addrB) := by decide +kernel
theorem test_decode_startConvAll : decoded [0x81] = some .startConvAll := by decide +kernel
theorem test_decode_readScratchpad :
    decoded [0x82, 0x28, 0xFF, 0x4C, 0x60, 0x91, 0x16, 0x04, 0xB4] = some (.readScratchpad addrA) := by decide +kernel
theorem test_decode_writeScratchpad :
    decoded [0x83, 0x28, 0xFF, 0x4C, 0x60, 0x91, 0x16, 0x04, 0xB4, 0x18, 0x12, 0x7F] =
      some (.writeScratchpad addrA 0x18 0x12 0x7F) := by decide +kernel
theorem test_decode_copyScratchpad :
    decoded [0x84, 0x28, 0xFF, 0x4C, 0x60, 0x91, 0x16, 0x04, 0xB4] = some (.copyScratchpad addrA) := by decide +kernel
theorem test_decode_recallEeprom :
    decoded [0x85, 0x28, 0xFF, 0x4C, 0x60, 0x91, 0x16, 0x04, 0xB4] = some (.recallEeprom addrA) := by decide +kernel
theorem test_decode_readPower :
    decoded [0x86, 0x28, 0xFF, 0x4C, 0x60, 0x91, 0x16, 0x04, 0xB4] = some (.readPower addrA) := by decide +kernel
theorem test_decode_readData :
    decoded [0x90, 0x28, 0xFF, 0x4C, 0x60, 0x91, 0x16, 0x04, 0xB4] = some (.readData addrA) := by decide +kernel
/-- Vector Q21's operands: −129, then 0. -/
theorem test_decode_setConfig :
    decoded [0x91, 0x28, 0xFF, 0x4C, 0x60, 0x91, 0x16, 0x04, 0xB4, 0x7F, 0xFF, 0x00, 0x00, 0x0C] =
      some (.setConfig addrA 0xFF7F 0x0000 .r12) := by decide +kernel

/-- Vectors F1 to F7 and F10: no OP, an unassigned OP, and the wrong lengths. -/
theorem test_reject_shape :
    decodeFrame Config.default [] = .error .emptyFrame ∧
    decodeFrame Config.default [0x03] = .error (.unassignedOpcode 0x03) ∧
    decodeFrame Config.default [0xFF] = .error (.unassignedOpcode 0xFF) ∧
    decodeFrame Config.default [0x81, 0x00] = .error .wrongLength ∧
    decodeFrame Config.default [0x01] = .error .wrongLength ∧
    decodeFrame Config.default [0x01, 0x02, 0x01] = .error .wrongLength ∧
    decodeFrame Config.default [0x01, 0x00, 0x00] = .error .wrongLength ∧
    decodeFrame Config.default [0x82, 0x28, 0xFF, 0x4C, 0x60, 0x91, 0x16, 0x04] = .error .wrongLength := by
  refine ⟨?_, ?_, ?_, ?_, ?_, ?_, ?_, ?_⟩ <;> rfl

/-- Vectors F8, F9, E5, E6: a RES operand that is no resolution. -/
theorem test_reject_resolution :
    decoded [0x30, 0x08] = none ∧ decoded [0x11, 0x08] = none ∧ decoded [0x11, 0x0D] = none ∧
    decoded [0x91, 0x28, 0xFF, 0x4C, 0x60, 0x91, 0x16, 0x04, 0xB4, 0x12, 0x00, 0x18, 0x00, 0x0D] = none := by decide +kernel

/-- An FS length byte above `P_SEQ_MAX` (R85). -/
theorem test_reject_seqMax :
    (decodeFrame { Config.default with seqMax := 2 } [0x01, 0x03, 0, 0, 0]).toOption = none ∧
    (decodeFrame { Config.default with seqMax := 2 } [0x01, 0x02, 0, 0]).toOption = some (.crcCompute [0, 0]) := by
  decide +kernel

/-- The table's numbering: the first byte is the low one. -/
theorem test_decodeTableWord :
    decodeTableWord 16 0x0911 = some (.spEncodeConfig .r9) ∧ decodeTableWord 8 0x81 = some .startConvAll ∧
    decodeTableWord 8 0x82 = some (.readScratchpad ⟨0, 0, 0, 0, 0, 0, 0, 0⟩) ∧ decodeTableWord 8 0x03 = none := by
  decide +kernel

/-! ## Pure requests -/

/-- Vector C11. -/
theorem test_crcCompute_check_value :
    answers [0x01, 0x09, 0x31, 0x32, 0x33, 0x34, 0x35, 0x36, 0x37, 0x38, 0x39] [0xA1] := by decide +kernel
/-- Vectors C1, C3, C10. -/
theorem test_crcCompute_short :
    answers [0x01, 0x00] [0x00] ∧ answers [0x01, 0x01, 0x01] [0x5E] ∧ answers [0x01, 0x03, 0x12, 0x34, 0x56] [0x15] := by
  decide +kernel
/-- Vectors C17 to C22. -/
theorem test_crcVerify :
    answers [0x02, 0x00] [0x00] ∧ answers [0x02, 0x01, 0x00] [0x01] ∧ answers [0x02, 0x01, 0x5E] [0x00] ∧
    answers [0x02, 0x02, 0x01, 0x5E] [0x01] ∧ answers [0x02, 0x02, 0x01, 0x5F] [0x00] ∧
    answers [0x02, 0x02, 0x03, 0x5E] [0x00] := by decide +kernel
/-- Vector D3: the raw word, unmasked. -/
theorem test_spDecode :
    answers [0x10, 0x5F, 0x05, 0x4B, 0x46, 0x1F, 0xFF, 0x0C, 0x10, 0x76] [0x5F, 0x05, 0x4B, 0x46, 0x09, 0x76] := by
  decide +kernel
/-- Vectors D14, D17 and D21. -/
theorem test_spDecode_errors :
    fails [0x10, 0x50, 0x05, 0x4B, 0x46, 0x7F, 0xFF, 0x0C, 0x10, 0x1D] .checksumError ∧
    fails [0x10, 0x50, 0x05, 0x4B, 0x46, 0x60, 0xFF, 0x0C, 0x10, 0xBE] .malformedConfigError ∧
    fails [0x10, 0x50, 0x05, 0x4B, 0x46, 0xFF, 0xFF, 0x0C, 0x10, 0x00] .checksumError := by decide +kernel
/-- Vectors E1 to E4. -/
theorem test_spEncodeConfig :
    answers [0x11, 0x09] [0x1F] ∧ answers [0x11, 0x0A] [0x3F] ∧ answers [0x11, 0x0B] [0x5F] ∧
    answers [0x11, 0x0C] [0x7F] := by decide +kernel
/-- Vector D5: masked at 10 bits, TL before TH. -/
theorem test_sensorData :
    answers [0x12, 0x5E, 0xFF, 0x4B, 0x46, 0x3F, 0xFF, 0x0C, 0x10, 0x8A] [0x5C, 0xFF, 0x0A, 0x46, 0x4B] := by
  decide +kernel
/-- Vectors D15 and D20. -/
theorem test_sensorData_errors :
    fails [0x12, 0xFF, 0xFF, 0xFF, 0xFF, 0xFF, 0xFF, 0xFF, 0xFF, 0xFF] .checksumError ∧
    fails [0x12, 0xFF, 0xFF, 0xFF, 0xFF, 0xFF, 0xFF, 0xFF, 0xFF, 0xC9] .malformedConfigError := by decide +kernel
/-- Vectors T3, T5 and T11. -/
theorem test_tempConvert :
    answers [0x20, 0x5F, 0x05, 0x09] [0x58, 0x05] ∧ answers [0x20, 0xFF, 0x7F, 0x0B] [0xFE, 0x7F] ∧
    answers [0x20, 0x5E, 0xFF, 0x0A] [0x5C, 0xFF] := by decide +kernel
/-- Rule R162's value: T3 at 9 bits is 85.5 °C, T6 at 12 bits −0.0625 °C. -/
theorem test_celsius : celsius 0x0558 = 855 / 10 ∧ celsius 0xFFFF = -(1 / 16) := by
  constructor <;> decide +kernel
/-- Vectors M1 to M4. -/
theorem test_convTime :
    answers [0x30, 0x09] [0x36, 0x6E, 0x01, 0x00] ∧ answers [0x30, 0x0A] [0x6C, 0xDC, 0x02, 0x00] ∧
    answers [0x30, 0x0B] [0xD8, 0xB8, 0x05, 0x00] ∧ answers [0x30, 0x0C] [0xB0, 0x71, 0x0B, 0x00] := by
  decide +kernel
/-- Vectors M5 to M8. -/
theorem test_regBits :
    answers [0x31, 0x09] [0x00] ∧ answers [0x31, 0x0A] [0x01] ∧ answers [0x31, 0x0B] [0x02] ∧
    answers [0x31, 0x0C] [0x03] := by decide +kernel
/-- Vectors M9, M12, M13 and M14. -/
theorem test_fromRegBits :
    answers [0x32, 0x00] [0x09] ∧ answers [0x32, 0x03] [0x0C] ∧ fails [0x32, 0x04] .malformedConfigError ∧
    fails [0x32, 0x60] .malformedConfigError := by decide +kernel
/-- Vectors Q35, Q36 and S7. -/
theorem test_checkAddress :
    answers [0x40, 0x28, 0xFF, 0x4C, 0x60, 0x91, 0x16, 0x04, 0xB4] [] ∧
    answers [0x40, 0x28, 0, 0, 0, 0, 0, 0, 0] [] ∧
    fails [0x40, 0x10, 0xFF, 0x4C, 0x60, 0x91, 0x16, 0x04, 0xB4] .wrongFamilyError := by decide +kernel
/-- Vectors E1 to E4 with `cfg_decode`, and K5 to K9. -/
theorem test_cfgDecode :
    cfgDecode Config.default 0x1F = some .r9 ∧ cfgDecode Config.default 0x7F = some .r12 ∧
    cfgDecode Config.default 0xFF = none ∧ cfgDecode Config.default 0x60 = none ∧
    cfgDecode Config.default 0x7E = none ∧ cfgDecode { Config.default with cfgStrict := false } 0xFF = some .r12 := by
  decide +kernel

/-! ## Bus requests -/

/-- Vector Q1. -/
theorem test_startConvAddr :
    onFrame (0x80 :: addrBytes addrA) (ready (oks 2) [] [] []) =
      some (some .ok, some [], [.reset (.ok .present), .select addrA (.ok ()), .write 0x44 (.ok ())]) := by decide +kernel
/-- Vectors Q2, Q4 and Q5. -/
theorem test_startConvAddr_errors :
    outcome (exec (.startConvAddr addrA) { ready [] [] [] [] with bus := ⟨[.ok .absent], [], [], []⟩ }) =
      some (some (.error .busError), none, [.reset (.ok .absent)]) ∧
    outcome (exec (.startConvAddr addrA) (ready [.err] [] [] [])) =
      some (some (.error .busError), none, [.reset (.ok .present), .select addrA .err]) ∧
    outcome (exec (.startConvAddr addrA) (ready [.ok (), .err] [] [] [])) =
      some (some (.error .busError), none,
        [.reset (.ok .present), .select addrA (.ok ()), .write 0x44 .err]) := by
  refine ⟨?_, ?_, ?_⟩ <;> decide +kernel
/-- Vectors Q7 and Q8. -/
theorem test_startConvAll :
    onFrame [0x81] (ready (oks 2) [] [] []) =
      some (some .ok, some [], [.reset (.ok .present), .skip (.ok ()), .write 0x44 (.ok ())]) ∧
    onFrame [0x81] (ready [.err] [] [] []) =
      some (some (.error .busError), none, [.reset (.ok .present), .skip .err]) := by
  refine ⟨?_, ?_⟩ <;> decide +kernel
/-- Vector Q9. -/
theorem test_readScratchpad :
    onFrame (0x82 :: addrBytes addrA) (ready (oks 2) (rawBytes rawD1) [] []) =
      some (some .ok, some [0x50, 0x05, 0x4B, 0x46, 0x0C, 0x1C],
        [.reset (.ok .present), .select addrA (.ok ()), .write 0xBE (.ok ()), .read (.ok 0x50), .read (.ok 0x05),
         .read (.ok 0x4B), .read (.ok 0x46), .read (.ok 0x7F), .read (.ok 0xFF), .read (.ok 0x0C), .read (.ok 0x10),
         .read (.ok 0x1C)]) := by decide +kernel
/-- Vector Q10: a read error after four bytes; `rx[4..8]` stay unwritten. -/
theorem test_readScratchpad_read_error :
    (match exec (.readScratchpad addrA)
        { State.reset with
          bus := ⟨[.ok .present], oks 2, [.ok 0x50, .ok 0x05, .ok 0x4B, .ok 0x46, .err], []⟩ } with
      | .next t => some (t.respStatus, t.trace.length, t.rx.toList)
      | .fault _ => none
      | .refused _ => none) =
      some (some (.error .busError), 8,
        [some 0x50, some 0x05, some 0x4B, some 0x46, none, none, none, none, none]) := by decide +kernel
/-- Vector Q14's result. -/
theorem test_readData :
    (onFrame (0x90 :: addrBytes addrA)
      (ready (oks 2) [0x67, 0x05, 0x4B, 0x46, 0x1F, 0xFF, 0x0C, 0x10, 0xA0] [] [])).map (·.2.1) =
      some (some [0x60, 0x05, 0x09, 0x46, 0x4B]) := by decide +kernel
/-- Vector Q13 (no device matched) and Q15. -/
theorem test_readData_errors :
    (onFrame (0x90 :: addrBytes addrA) (ready (oks 2) (List.replicate 9 0xFF) [] [])).map (·.1) =
      some (some (.error .checksumError)) ∧
    onFrame (0x90 :: addrBytes addrB) (ready (oks 2) [] [] []) = some (some (.error .wrongFamilyError), none, []) := by
  refine ⟨?_, ?_⟩ <;> decide +kernel
/-- Vector Q16. -/
theorem test_writeScratchpad :
    onFrame (0x83 :: addrBytes addrA ++ [0x18, 0x12, 0x7F]) (ready (oks 5) [] [] []) =
      some (some .ok, some [],
        [.reset (.ok .present), .select addrA (.ok ()), .write 0x4E (.ok ()), .write 0x18 (.ok ()),
         .write 0x12 (.ok ()), .write 0x7F (.ok ())]) := by decide +kernel
/-- Vector Q18: no `WRITE(7F)` is issued. -/
theorem test_writeScratchpad_error :
    onFrame (0x83 :: addrBytes addrA ++ [0x18, 0x12, 0x7F]) (ready (oks 3 ++ [.err]) [] [] []) =
      some (some (.error .busError), none,
        [.reset (.ok .present), .select addrA (.ok ()), .write 0x4E (.ok ()), .write 0x18 (.ok ()),
         .write 0x12 .err]) := by decide +kernel
/-- Vector Q20: both ends of the range. -/
theorem test_setConfig :
    onFrame (0x91 :: addrBytes addrA ++ [0x80, 0xFF, 0x7F, 0x00, 0x09]) (ready (oks 5) [] [] []) =
      some (some .ok, some [],
        [.reset (.ok .present), .select addrA (.ok ()), .write 0x4E (.ok ()), .write 0x7F (.ok ()),
         .write 0x80 (.ok ()), .write 0x1F (.ok ())]) := by decide +kernel
/-- Vectors Q21, Q22, F11 and F12. -/
theorem test_setConfig_errors :
    fails (0x91 :: addrBytes addrA ++ [0x7F, 0xFF, 0x00, 0x00, 0x0C]) .outOfRangeError ∧
    fails (0x91 :: addrBytes addrA ++ [0x00, 0x00, 0x80, 0x00, 0x0C]) .outOfRangeError ∧
    fails (0x91 :: addrBytes addrB ++ [0x12, 0x00, 0xC8, 0x00, 0x0D]) .illegalRequest ∧
    fails (0x91 :: addrBytes addrB ++ [0x12, 0x00, 0xC8, 0x00, 0x0C]) .wrongFamilyError := by decide +kernel
/-- Vector Q25. -/
theorem test_copyScratchpad :
    onFrame (0x84 :: addrBytes addrA) (ready (oks 2) [] [] [0]) =
      some (some .ok, some [],
        [.reset (.ok .present), .select addrA (.ok ()), .write 0x48 (.ok ()), .delayMs 10]) := by decide +kernel
/-- Vector Q26: no delay is issued. -/
theorem test_copyScratchpad_error :
    onFrame (0x84 :: addrBytes addrA) (ready [.ok (), .err] [] [] [0]) =
      some (some (.error .busError), none,
        [.reset (.ok .present), .select addrA (.ok ()), .write 0x48 .err]) := by decide +kernel
/-- Vector Q27. -/
theorem test_recallEeprom :
    onFrame (0x85 :: addrBytes addrA) (ready (oks 2) [] [] [0]) =
      some (some .ok, some [],
        [.reset (.ok .present), .select addrA (.ok ()), .write 0xB8 (.ok ()), .delayMs 10]) := by decide +kernel
/-- Vectors Q28 and Q29. -/
theorem test_recallEeprom_polls :
    (onFrame (0x85 :: addrBytes addrA) (polling 1000 [0, 0, 1])).map (fun x => (x.1, x.2.2.drop 3)) =
      some (some .ok, [.readBit (.ok 0), .readBit (.ok 0), .readBit (.ok 1)]) ∧
    (onFrame (0x85 :: addrBytes addrA) (polling 3 [0, 0, 0])).map (fun x => (x.1, x.2.2.drop 3)) =
      some (some (.error .busError), [.readBit (.ok 0), .readBit (.ok 0), .readBit (.ok 0)]) := by
  refine ⟨?_, ?_⟩ <;> decide +kernel
/-- Vectors Q32 and Q33. -/
theorem test_readPower :
    (onFrame (0x86 :: addrBytes addrA) (ready (oks 2) [] [1] [])).map (·.2.1) = some (some [0x01]) ∧
    (onFrame (0x86 :: addrBytes addrA) (ready (oks 2) [] [0] [])).map (·.2.1) = some (some [0x00]) := by
  refine ⟨?_, ?_⟩ <;> decide +kernel
/-- Vector Q34. -/
theorem test_readPower_error :
    outcome (exec (.readPower addrA) { ready (oks 2) [] [] [] with bus := ⟨[.ok .present], oks 2, [], [.err]⟩ }) =
      some (some (.error .busError), none,
        [.reset (.ok .present), .select addrA (.ok ()), .write 0xB4 (.ok ()), .readBit .err]) := by decide +kernel

/-! ## The machine -/

/-- A blocked request presents the primitive its `step` names and answers nothing (R22, R204). -/
theorem test_blocked :
    (match exec (.startConvAddr addrA) (ready (oks 1) [] [] []) with
      | .next t => some (t.st, t.step, t.portOut, t.respValid, t.respStatus)
      | .fault _ => none
      | .refused _ => none) = some (.busy, 2, some (.writeByte 0x44), false, none) := by decide +kernel

/-- Vector F2 as one step: the response frame is the status alone. -/
theorem test_illegal_frame : fails [0x03] .illegalRequest := by decide +kernel

/-- The row of the opcode table runs as the first instruction after reset. -/
theorem test_withFetchWord :
    (match step (State.reset.withFetchWord 16 0x0C30) with
      | .next t => t.respValue
      | .fault _ => none
      | .refused _ => none) = some [0xB0, 0x71, 0x0B, 0x00] := by decide +kernel

/-! ## The reference responder -/

/-- The device of 95_test_vectors.md section 9, with write and recall times of 5 ms. -/
def dev : Device := devPowerOn Config.default addrA 0x4B 0x46 1 5000 5000

/-- A step in which the transport answers, the devices draw `x` and no time passes beyond a requested delay. -/
def calm (x : DevDraw) : StepDraw := ⟨false, 0, [x]⟩

/-- A draw: the word W of 95_test_vectors.md P1, the longest conversion, the old word, a failing primitive that reaches
the device, an undisturbed copy. -/
def drawP1 : DevDraw := ⟨0x0191, 750000, false, true, none⟩

/-- The scratchpads and EEPROMs after a run from the given frames, and the response. -/
def loop (frames : List (List Byte)) (ds : List Device) (xs : List StepDraw) :
    Option (List (Raw9 × Eeprom) × Option (List Byte)) :=
  (System.run xs ⟨{ State.reset with frames := frames }, ds⟩).map fun y =>
    (y.devices.map fun d => (d.sp, d.ee), y.core.respValue)

/-- The power-on scratchpad (95_test_vectors.md section 1). -/
theorem test_devPowerOn : dev.sp = rawD1 := by decide +kernel

/-- P2: SET_CONFIG's three data bytes reach the device's scratchpad together. -/
theorem test_devWrite :
    ([0x18, 0x12, 0x7F].foldl (fun d b => devTurn Config.default drawP1 (.writeByte b) d)
      { dev with sp := ⟨0x91, 0x01, 0x4B, 0x46, 0x7F, 0xFF, 0x0C, 0x10, 0x70⟩, phase := .receiving [] }).sp =
      ⟨0x91, 0x01, 0x18, 0x12, 0x7F, 0xFF, 0x0C, 0x10, 0x8D⟩ := by decide +kernel

/-- P1: a conversion ends after its time, and the scratchpad then is P1's end state. -/
theorem test_conversion_ends :
    loop [[0x81]] [dev] (List.replicate 4 (calm drawP1) ++ [⟨false, 750000, []⟩]) =
      some ([(⟨0x91, 0x01, 0x4B, 0x46, 0x7F, 0xFF, 0x0C, 0x10, 0x70⟩, dev.ee)], some []) := by decide +kernel

/-- R76: a read before the conversion ends sees the old word or the new one, as drawn. -/
theorem test_read_during_conversion :
    (loop [[0x81], 0x90 :: addrBytes addrA] [dev] (List.replicate 17 (calm drawP1))).map (·.2) =
      some (some [0x50, 0x05, 0x0C, 0x46, 0x4B]) ∧
    (loop [[0x81], 0x90 :: addrBytes addrA] [dev] (List.replicate 17 (calm { drawP1 with seesNew := true }))).map (·.2) =
      some (some [0x91, 0x01, 0x0C, 0x46, 0x4B]) := by
  refine ⟨?_, ?_⟩ <;> decide +kernel

/-- R299: within the delay the EEPROM is old, after it new; a device slower than the delay still has the old one. -/
theorem test_copy_takes_its_time :
    let d := { dev with sp := spWritten Config.default 0x18 0x12 0x7F dev.sp }
    (loop [0x84 :: addrBytes addrA] [d] (List.replicate 4 (calm drawP1))).map (·.1.map (·.2)) =
      some [⟨0x4B, 0x46, 0x7F⟩] ∧
    (loop [0x84 :: addrBytes addrA] [d] (List.replicate 5 (calm drawP1))).map (·.1.map (·.2)) =
      some [⟨0x18, 0x12, 0x7F⟩] ∧
    (loop [0x84 :: addrBytes addrA] [{ d with writeUs := 20000 }] (List.replicate 5 (calm drawP1))).map
      (·.1.map (·.2)) = some [⟨0x4B, 0x46, 0x7F⟩] := by
  refine ⟨?_, ?_, ?_⟩ <;> decide +kernel

/-- A device with an EEPROM write under way, and a core in the delay of its COPY_SCRATCHPAD. -/
def copying : System :=
  ⟨{ State.reset with st := .busy, req := some (.copyScratchpad addrA), step := 3 },
    [{ dev with copy := some ⟨⟨0x18, 0x12, 0x7F⟩, 5000⟩ }]⟩

/-- R300: `rst` during the delay can leave one byte new and the others old; R304: a later bus reset stops nothing. -/
theorem test_copy_interrupted :
    (({ copying with core := { copying.core with rst := true } } : System).step
      (calm { drawP1 with copied := some 0b001 })).map (·.devices.map fun d => (d.ee, d.copy)) =
      some [(⟨0x18, 0x46, 0x7F⟩, none)] ∧
    copying.devices.map (fun d => (devTurn Config.default { drawP1 with copied := some 0b001 } .reset d).copy) =
      [some ⟨⟨0x18, 0x12, 0x7F⟩, 5000⟩] := by
  refine ⟨?_, ?_⟩ <;> decide +kernel

/-- R61: a third data byte that reaches the device and fails is not committed, and the request ends in BusError. -/
theorem test_write_fails_at_third_byte :
    (System.run (List.replicate 6 (calm drawP1) ++ [{ calm drawP1 with err := true }])
      ⟨{ State.reset with frames := [0x83 :: addrBytes addrA ++ [0x18, 0x12, 0x7F]] }, [dev]⟩).map
      (fun y => (y.core.respStatus, y.devices.map (·.sp))) =
      some (some (.error .busError), [dev.sp]) := by decide +kernel

/-- A recall takes the EEPROM's bytes as they are when it is done: a write with less time left ends first. -/
theorem test_recall_after_write :
    let d := { dev with copy := some ⟨⟨0x18, 0x12, 0x7F⟩, 3⟩, recallLeft := some 5 }
    ((devElapse 9 d).sp.b2, (devElapse 9 { d with recallLeft := some 2 }).sp.b2) = (0x18, 0x4B) := by decide +kernel

/-- R77: SKIP and then a command other than convert is defined nowhere, and the closed loop stops. -/
theorem test_skip_other_command :
    (devTurn Config.default drawP1 (.writeByte 0x48) (devTurn Config.default drawP1 .skip dev)).phase = .undefined := by
  decide +kernel

/-- R277: a broadcast convert that fails starts a conversion at each device that it reached. -/
theorem test_failed_broadcast :
    (System.run (List.replicate 3 (calm drawP1) ++ [⟨true, 0, [drawP1, { drawP1 with reached := false }]⟩])
      ⟨{ State.reset with frames := [[0x81]] }, [dev, dev]⟩).map
      (fun y => (y.core.respStatus, y.devices.map (·.conv.isSome))) =
      some (some (.error .busError), [true, false]) := by decide +kernel

/-- R93: D10's alarms, 127 and −128. -/
theorem test_alarmDegrees :
    rawThDegrees ⟨0x50, 0x05, 0x7F, 0x80, 0x7F, 0xFF, 0x0C, 0x10, 0x93⟩ = 127 ∧
    rawTlDegrees ⟨0x50, 0x05, 0x7F, 0x80, 0x7F, 0xFF, 0x0C, 0x10, 0x93⟩ = -128 ∧
    rawRes Config.default rawD1 = some .r12 := by decide +kernel

/-! ## Witnesses: for every obligation with hypotheses, an instance that meets them -/

/-- A state with other parameters than the defaults: the resolution codes permuted, polling. -/
def cfgOther : Config :=
  { Config.default with
    familyCode := 0x22, code9 := 0b11, code10 := 0b10, code11 := 0b01, code12 := 0b00, cfgReservedValue := 0x1E,
    cfgStrict := false, recallPoll := true, recallPollLimit := 1 }

theorem witness_Config_wf : Config.default.wf ∧ cfgOther.wf := by decide +kernel

/-- For the obligations whose only hypothesis is IDLE: the reset state, and a state with an older response. -/
theorem witness_idle :
    State.reset.st = .idle ∧ (State.reset.raise .busError).st = .idle ∧ (State.reset.respond [0x01]).st = .idle := by
  decide +kernel

theorem witness_DecodeOfEncodeIsTheRequest :
    (Instr.crcCompute (List.replicate 255 0xAA)).wf Config.default = true ∧ (Instr.crcVerify []).wf cfgOther = true ∧
    (Instr.setConfig addrA 0x8000 0x7FFF .r12).wf Config.default = true := by decide +kernel

theorem witness_OnlyEncodedRequestsDecode :
    decodeFrame Config.default [0x20, 0x5F, 0x05, 0x09] = .ok (.tempConvert 0x055F .r9) := rfl

theorem witness_FrameLengthComesFromOpcode :
    decodeFrame Config.default [0x01, 0x00] = .ok (.crcCompute []) ∧
    decodeFrame Config.default [0x81] = .ok .startConvAll := ⟨rfl, rfl⟩

theorem witness_CrcResidueIsZero : 1 ≤ ([0x00] : List Byte).length ∧ State.reset.st = .idle := by decide +kernel

/-- The first bit of the data, and the last bit of the CRC byte. -/
theorem witness_SingleBitFlipIsDetected :
    (0 ≤ ([0x01] : List Byte).length ∧ 0 < 8) ∧ 1 ≤ ([0x01] : List Byte).length ∧ 7 < 8 ∧ State.reset.st = .idle := by
  decide +kernel

theorem witness_ConfigByteDecodesOnlyIfEncoded :
    (Config.default.wf ∧ Config.default.cfgStrict = true) ∧ cfgOther.wf ∧ cfgOther.cfgStrict = false := by decide +kernel

theorem witness_SpDecodeAnswersTheRecord :
    State.reset.st = .idle ∧ crc8 (rawData rawD1) = rawD1.b8 ∧ cfgDecode State.reset.cfg rawD1.b4 = some .r12 := by
  decide +kernel

theorem witness_SensorDataAnswersTheReading :
    State.reset.st = .idle ∧ crc8 (rawData rawD1) = rawD1.b8 ∧ cfgDecode State.reset.cfg rawD1.b4 = some .r12 := by
  decide +kernel

theorem witness_ChecksumErrorComesFirst :
    State.reset.st = .idle ∧ crc8 (rawData rawD14) ≠ rawD14.b8 ∧
    crc8 (rawData rawD16) = rawD16.b8 ∧ cfgDecode State.reset.cfg rawD16.b4 = none := by decide +kernel

/-- The state a request answers, if it answers one. -/
def nextOf (r : Result) : Option State :=
  match r with
  | .next t => some t
  | .fault _ => none
  | .refused _ => none

theorem eq_next_of_nextOf {r : Result} {t : State} (h : nextOf r = some t) : r = .next t := by
  cases r with
  | next u => exact congrArg _ (Option.some.inj h)
  | fault f => exact nomatch h
  | refused f => exact nomatch h

/-- A witness of a statement about the state a request answers. -/
theorem exists_next {r : Result} {p : State → Bool} (h : (nextOf r).any p = true) : ∃ t, r = .next t ∧ p t = true := by
  cases hr : nextOf r with
  | none => rw [hr] at h; exact nomatch h
  | some t => rw [hr] at h; exact ⟨t, eq_next_of_nextOf hr, h⟩

/-- The clauses: a decode of given bytes and of received bytes, with a good CRC and with a bad one. -/
theorem witness_InvalidScratchpadIsNeverDecoded :
    (∃ t, exec (.readData addrA) (ready (oks 2) (rawBytes rawD14) [] []) = .next t ∧
      decide (t.rx = received rawD14 ∧ crc8 (rawData rawD14) ≠ rawD14.b8) = true) ∧
    (∃ t, exec (.spDecode rawD1) State.reset = .next t ∧ decide (t.respStatus = some .ok) = true) ∧
    ∃ t, exec (.readData addrA) (ready (oks 2) (rawBytes rawD1) [] []) = .next t ∧
      decide (t.respStatus = some .ok) = true :=
  ⟨exists_next (by decide +kernel), exists_next (by decide +kernel), exists_next (by decide +kernel)⟩

theorem witness_MaskingIsFloor : (0 ≤ 3) ∧ 3 ≤ 3 := by decide +kernel

theorem witness_FromRegBitsAnswersTheResolution :
    State.reset.st = .idle ∧ State.reset.cfg.wf ∧ (0x03 : Byte).toNat ≤ 3 ∧ 3 < (0x04 : Byte).toNat := by decide +kernel

theorem witness_RegisterBitsRoundTrip : Config.default.wf ∧ (0x00 : Byte).toNat ≤ 3 ∧ (0x03 : Byte).toNat ≤ 3 := by
  decide +kernel

theorem witness_CheckAddressAcceptsTheFamily : State.reset.st = .idle ∧ addrA.a0 = State.reset.cfg.familyCode := by
  decide +kernel

theorem witness_StartConvAddrCompletes : Ready (ready (oks 2) [] [] []) addrA 2 [] [] := ⟨rfl, rfl, rfl, rfl⟩

theorem witness_StartConvAllCompletes :
    let s := ready (oks 2) [] [] []
    s.st = .idle ∧ s.bus.resets = .ok .present :: [] ∧ s.bus.acks = .ok () :: .ok () :: [] := ⟨rfl, rfl, rfl⟩

theorem witness_ReadScratchpadCompletes :
    let s := ready (oks 2) (rawBytes rawD1) [] []
    ReadReady s addrA rawD1 [] [] [] ∧ crc8 (rawData rawD1) = rawD1.b8 ∧ cfgDecode s.cfg rawD1.b4 = some .r12 :=
  ⟨⟨⟨rfl, rfl, rfl, rfl⟩, rfl⟩, by decide +kernel, by decide +kernel⟩

theorem witness_ReadDataCompletes :
    let s := ready (oks 3) (rawBytes rawD1 ++ [0xFF]) [] []
    ReadReady s addrA rawD1 [] [.ok ()] [.ok 0xFF] ∧ crc8 (rawData rawD1) = rawD1.b8 ∧
    cfgDecode s.cfg rawD1.b4 = some .r12 :=
  ⟨⟨⟨rfl, rfl, rfl, rfl⟩, rfl⟩, by decide +kernel, by decide +kernel⟩

theorem witness_ScratchpadReadsReportBadBytes :
    (ReadReady (ready (oks 2) (rawBytes rawD14) [] []) addrA rawD14 [] [] [] ∧
      crc8 (rawData rawD14) ≠ rawD14.b8) ∧
    ReadReady (ready (oks 2) (rawBytes rawD16) [] []) addrA rawD16 [] [] [] ∧
    crc8 (rawData rawD16) = rawD16.b8 ∧ cfgDecode Config.default rawD16.b4 = none :=
  ⟨⟨⟨⟨rfl, rfl, rfl, rfl⟩, rfl⟩, by decide +kernel⟩, ⟨⟨rfl, rfl, rfl, rfl⟩, rfl⟩, by decide +kernel, by decide +kernel⟩

theorem witness_WriteScratchpadCompletes : Ready (ready (oks 5) [] [] []) addrA 5 [] [] := ⟨rfl, rfl, rfl, rfl⟩

/-- Both ends of the range, and a low alarm above the high one. -/
theorem witness_SetConfigCompletes :
    Ready (ready (oks 5) [] [] []) addrA 5 [] [] ∧
    (-128 ≤ (0xFF80 : Word16).toInt ∧ (0xFF80 : Word16).toInt ≤ 127) ∧
    (-128 ≤ (0x007F : Word16).toInt ∧ (0x007F : Word16).toInt ≤ 127) ∧
    (0x007F : Word16).toInt > (0xFF80 : Word16).toInt :=
  ⟨⟨rfl, rfl, rfl, rfl⟩, by decide +kernel, by decide +kernel, by decide +kernel⟩

theorem witness_CopyScratchpadCompletesAfterTheDelay :
    let s := ready (oks 2) [] [] [7, 3]
    Ready s addrA 2 [] [] ∧ s.timer.ends = 7 :: [3] := ⟨⟨rfl, rfl, rfl, rfl⟩, rfl⟩

theorem witness_RecallEepromCompletesAfterTheDelay :
    let s := ready (oks 2) [] [] [0]
    s.cfg.recallPoll = false ∧ Ready s addrA 2 [] [] ∧ s.timer.ends = 0 :: [] := ⟨rfl, ⟨rfl, rfl, rfl, rfl⟩, rfl⟩

/-- The first poll answers 1; the last poll the limit allows answers 1; every poll answers 0. -/
theorem witness_RecallEepromPollsUntilDone :
    let s1 := polling 3 [1, 0]
    let s2 := polling 3 [0, 0, 1]
    let s3 := polling 3 [0, 0, 0, 1]
    (s1.cfg.recallPoll = true ∧ Ready s1 addrA 2 [] [] ∧ 0 < s1.cfg.recallPollLimit.toNat ∧
      s1.bus.bits = List.replicate 0 (.ok 0) ++ .ok 1 :: [.ok 0]) ∧
    (s2.cfg.recallPoll = true ∧ Ready s2 addrA 2 [] [] ∧ 2 < s2.cfg.recallPollLimit.toNat ∧
      s2.bus.bits = List.replicate 2 (.ok 0) ++ .ok 1 :: []) ∧
    (s3.cfg.recallPoll = true ∧ Ready s3 addrA 2 [] [] ∧ 3 = s3.cfg.recallPollLimit.toNat ∧
      s3.bus.bits = List.replicate 3 (.ok 0) ++ [.ok 1]) :=
  ⟨⟨rfl, ⟨rfl, rfl, rfl, rfl⟩, by decide +kernel, rfl⟩, ⟨rfl, ⟨rfl, rfl, rfl, rfl⟩, by decide +kernel, rfl⟩,
    rfl, ⟨rfl, rfl, rfl, rfl⟩, by decide +kernel, rfl⟩

theorem witness_ReadPowerAnswersTheBit :
    Ready (ready (oks 2) [] [0] []) addrA 2 [] [] ∧ (ready (oks 2) [] [0] []).bus.bits = .ok 0 :: [] :=
  ⟨⟨rfl, rfl, rfl, rfl⟩, rfl⟩

/-- The wrong family, and each alarm just outside the range on each side. -/
theorem witness_ChecksComeBeforeTheBus :
    State.reset.st = .idle ∧ addressOf (.readData addrB) = some addrB ∧ addrB.a0 ≠ State.reset.cfg.familyCode ∧
    addressOf (.setConfig addrA 0xFF7F 0 .r9) = some addrA ∧ addrA.a0 = State.reset.cfg.familyCode ∧
    (0xFF7F : Word16).toInt < -128 ∧ 127 < (0x0080 : Word16).toInt ∧ (0xFF7F : Word16).toInt = -129 ∧
    (0x0080 : Word16).toInt = 128 := by decide +kernel

/-- An IDLE core that polls twice, with the answers of the events `es` and `e` ready and more behind them. -/
def failing (es : List Event) (e : Event) : State :=
  { State.reset with
    cfg := { Config.default with recallPoll := true, recallPollLimit := 2 }
    bus := (es ++ [e]).foldr putBack ⟨[.err], [.ok ()], [], []⟩ }

/-- FailedPrimitiveIsBusError's hypotheses at that core. -/
abbrev FailsAt (i : Instr) (es : List Event) (e : Event) : Prop :=
  (failing es e).st = .idle ∧ isBusRequest i = true ∧ checksPass (failing es e).cfg i = true ∧
  (es ++ [e]).map eventPrim <+: (sequenceRow (failing es e).cfg i).map stepPrim ∧
  (∀ x ∈ es, eventOk x = true ∧ x ≠ .readBit (.ok 1)) ∧ eventOk e = false ∧
  (failing es e).bus = (es ++ [e]).foldr putBack ⟨[.err], [.ok ()], [], []⟩

/-- The failures: no presence, a selection, the skip, a command byte, a data byte, the ninth read, the second poll and the
read-bit of READ_POWER. -/
theorem witness_FailedPrimitiveIsBusError :
    FailsAt (.readData addrA) [] (.reset (.ok .absent)) ∧
    FailsAt (.readData addrA) [.reset (.ok .present)] (.select addrA .err) ∧
    FailsAt .startConvAll [.reset (.ok .present)] (.skip .err) ∧
    FailsAt (.copyScratchpad addrA) (opened addrA) (.write 0x48 .err) ∧
    FailsAt (.writeScratchpad addrA 0x18 0x12 0x7F)
      (opened addrA ++ [.write 0x4E (.ok ()), .write 0x18 (.ok ()), .write 0x12 (.ok ())]) (.write 0x7F .err) ∧
    FailsAt (.readScratchpad addrA)
      (opened addrA ++ .write 0xBE (.ok ()) :: List.replicate 8 (.read (.ok 0xFF))) (.read .err) ∧
    FailsAt (.recallEeprom addrA) (opened addrA ++ [.write 0xB8 (.ok ()), .readBit (.ok 0)]) (.readBit .err) ∧
    FailsAt (.readPower addrA) (opened addrA ++ [.write 0xB4 (.ok ())]) (.readBit .err) := by
  refine ⟨?_, ?_, ?_, ?_, ?_, ?_, ?_, ?_⟩ <;> decide +kernel

/-- The clauses: a request that ends in a failure, one that is still BUSY, one that completes, and one whose poll ends its
row early. -/
theorem witness_BusPhaseFollowsTheSequenceTable :
    (isBusRequest (.copyScratchpad addrA) = true ∧ checksPass Config.default (.copyScratchpad addrA) = true) ∧
    (∃ t, exec (.copyScratchpad addrA) (ready [.ok (), .err] [] [] []) = .next t ∧
      decide (t.trace = [.reset (.ok .present), .select addrA (.ok ()), .write 0x48 .err]) = true) ∧
    (∃ t, exec (.copyScratchpad addrA) (ready (oks 2) [] [] []) = .next t ∧ decide (t.st = .busy) = true) ∧
    (∃ t, exec (.copyScratchpad addrA) (ready (oks 2) [] [] [0]) = .next t ∧
      decide (t.respStatus = some .ok) = true) ∧
    ∃ t, exec (.recallEeprom addrA) (polling 3 [0, 1]) = .next t ∧
      decide (t.trace.getLast? = some (.readBit (.ok 1)) ∧ t.respStatus = some .ok) = true :=
  ⟨by decide +kernel, exists_next (by decide +kernel), exists_next (by decide +kernel), exists_next (by decide +kernel),
   exists_next (by decide +kernel)⟩

/-- R208: a read that fails at its third byte leaves the two it has in `rx` and the rest of `rx` unwritten. -/
theorem test_failed_read_leaves_rx :
    (nextOf (exec (.readScratchpad addrA)
      { ready (oks 2) [] [] [] with bus := ⟨[.ok .present], oks 2, [.ok 0x50, .ok 0x05, .err], []⟩ })).map
      (fun t => (t.rx.toList, t.respStatus)) =
      some ([some 0x50, some 0x05, none, none, none, none, none, none, none], some (.error .busError)) := by
  decide +kernel

/-- A trace with a selection, one with a skip, and one with a delay. -/
theorem witness_SelectionAndDelayDiscipline :
    (∃ t, exec (.copyScratchpad addrA) (ready (oks 2) [] [] [0]) = .next t ∧
      decide (t.trace = [.reset (.ok .present), .select addrA (.ok ()), .write 0x48 (.ok ()), .delayMs 10]) = true) ∧
    ∃ t, exec .startConvAll (ready (oks 2) [] [] []) = .next t ∧
      decide (t.trace = [.reset (.ok .present), .skip (.ok ()), .write 0x44 (.ok ())]) = true :=
  ⟨exists_next (by decide +kernel), exists_next (by decide +kernel)⟩

theorem witness_ReadDataTracesAsReadScratchpad :
    let s := ready (oks 2) (rawBytes rawD1) [] []
    s.st = .idle ∧
    (∃ t, exec (.readScratchpad addrA) s = .next t ∧ decide (t.respStatus = some .ok) = true) ∧
    ∃ u, exec (.readData addrA) s = .next u ∧ decide (u.respStatus = some .ok) = true :=
  ⟨rfl, exists_next (by decide +kernel), exists_next (by decide +kernel)⟩

/-- A request that ends OK, and one that ends in an error. -/
theorem witness_RequestsEndOnlyInTheirStatuses :
    (∃ t, exec (.fromRegBits 0x03) State.reset = .next t ∧ decide (t.st = .idle ∧ t.respStatus = some .ok) = true) ∧
    ∃ t, exec (.fromRegBits 0x04) State.reset = .next t ∧
      decide (t.st = .idle ∧ t.respStatus = some (.error .malformedConfigError)) = true :=
  ⟨exists_next (by decide +kernel), exists_next (by decide +kernel)⟩

/-- A core blocked at the third step of START_CONV_ALL's row. -/
def busyCore : State :=
  { State.reset with
    st := .busy, req := some .startConvAll, step := 2, frames := [[0x30, 0x0C]],
    trace := [.reset (.ok .present), .skip (.ok ())] }

/-- From IDLE without a CRC, from IDLE without the bus, and from BUSY. -/
theorem witness_RequestFrame :
    (∃ t, exec (.regBits .r9) State.reset = .next t ∧ (usesNoCrc (.regBits .r9) && !isBusRequest (.regBits .r9)) = true) ∧
    (∃ t, exec .startConvAll busyCore = .next t ∧ decide (busyCore.st = .busy) = true) ∧
    ¬ isScratchpadRead .startConvAll ∧
    ∀ a, Instr.startConvAll ≠ .copyScratchpad a ∧ Instr.startConvAll ≠ .recallEeprom a :=
  ⟨exists_next (by decide +kernel), exists_next (by decide +kernel), nofun, fun _ => ⟨nofun, nofun⟩⟩

theorem witness_StepRunsTheDecodedRequest :
    let s := { State.reset with frames := [[0x30, 0x0C], [0x81]] }
    s.rst = false ∧ s.st = .idle ∧ s.frames = [0x30, 0x0C] :: [[0x81]] ∧
    decodeFrame s.cfg [0x30, 0x0C] = .ok (.convTime .r12) := ⟨rfl, rfl, rfl, rfl⟩

theorem witness_IllegalFrameCompletesAtOnce :
    let s := { State.reset with frames := [[0x30, 0x08]] }
    s.rst = false ∧ s.st = .idle ∧ s.frames = [0x30, 0x08] :: [] ∧
    decodeFrame s.cfg [0x30, 0x08] = .error (.badResolution 0x08) := ⟨rfl, rfl, rfl, rfl⟩

theorem witness_BusyStepHoldsTheFrames :
    busyCore.rst = false ∧ busyCore.st = .busy ∧ busyCore.req = some .startConvAll ∧
    ∃ t, step busyCore = .next t ∧ decide (t.frames = [[0x30, 0x0C]]) = true :=
  ⟨rfl, rfl, rfl, exists_next (by decide +kernel)⟩

theorem witness_IdleCoreWaits : State.reset.rst = false ∧ State.reset.st = .idle ∧ State.reset.frames = [] := by decide +kernel

theorem witness_ResetAbandonsTheRequest : ({ busyCore with rst := true } : State).rst = true := rfl

/-- The invariant of a BUSY state, of a state with an OK response and of one with an error response. -/
theorem witness_StepKeepsTheInvariant :
    busyCore.Inv ∧ (State.reset.respond [0x01]).Inv ∧ (State.reset.raise .busError).Inv :=
  ⟨⟨by decide +kernel, nofun, fun _ => ⟨rfl, .startConvAll, rfl, rfl, by decide +kernel, by decide +kernel⟩, trivial⟩,
    ⟨by decide +kernel, fun _ => ⟨rfl, rfl⟩, nofun, trivial⟩, ⟨by decide +kernel, fun _ => ⟨rfl, rfl⟩, nofun, trivial⟩⟩

theorem witness_StepsKeepParametersAndExtendTheTrace :
    ∃ t, step { busyCore with bus := ⟨[], [.ok ()], [], []⟩ } = .next t ∧ decide (t.trace.length = 3) = true :=
  exists_next (by decide +kernel)

/-- Two IDLE states that differ in everything but the parameters and the answers ready, for a request and for a step; and
two BUSY ones that differ in the trace and the CRC register. -/
theorem witness_RequestsDependOnNoEarlierRequest :
    let s : State := { ready (oks 2) [] [] [] with frames := [[0x81]] }
    let s' : State := { s with
      crc := 0xAA, respValid := true, respStatus := some .ok, respValue := some [0x01], rx := received rawD1,
      trace := [.reset .err], freeCtr := 5 }
    let b : State := { busyCore with bus := ⟨[], oks 1, [], []⟩ }
    let b' : State := { b with crc := 0xAA, trace := [] }
    (Alike s s' ∧ s'.rst = s.rst ∧ s'.frames = s.frames) ∧
    ((∃ t, exec .startConvAll s = .next t ∧ decide (t.respStatus = some .ok) = true) ∧
      ∃ t', exec .startConvAll s' = .next t' ∧ decide (t'.respStatus = some .ok) = true) ∧
    ((∃ t, step s = .next t ∧ decide (t.respStatus = some .ok) = true) ∧
      ∃ t', step s' = .next t' ∧ decide (t'.respStatus = some .ok) = true) ∧
    (Alike b b' ∧ b'.rst = b.rst ∧ b'.frames = b.frames) ∧
    (∃ t, step b = .next t ∧ decide (t.st = .idle) = true) ∧ ∃ t', step b' = .next t' ∧ decide (t'.st = .idle) = true :=
  ⟨⟨⟨rfl, rfl, rfl, rfl, nofun⟩, rfl, rfl⟩, ⟨exists_next (by decide +kernel), exists_next (by decide +kernel)⟩,
    ⟨exists_next (by decide +kernel), exists_next (by decide +kernel)⟩,
    ⟨⟨rfl, rfl, rfl, rfl, fun _ => ⟨rfl, rfl, rfl⟩⟩, rfl, rfl⟩, exists_next (by decide +kernel),
    exists_next (by decide +kernel)⟩

/-- READ_DATA blocked after four bytes. -/
theorem witness_BlockedRequestResumes :
    (ready (oks 2) [0x50, 0x05, 0x4B, 0x46] [] []).st = .idle ∧
    ∃ t, exec (.readData addrA) (ready (oks 2) [0x50, 0x05, 0x4B, 0x46] [] []) = .next t ∧
      decide (t.st = .busy ∧ t.step = 7) = true :=
  ⟨rfl, exists_next (by decide +kernel)⟩

theorem witness_CutShortWriteChangesNothing :
    let d := { dev with phase := .receiving [] }
    d.phase = .receiving [] ∧ ([] : List Byte).length < 3 ∧ ([0x18, 0x12] : List Byte).length < 3 :=
  ⟨rfl, by decide, by decide⟩

/-- The two requests: WRITE_SCRATCHPAD with a byte whose reserved bits are not the device's, and SET_CONFIG with the ends
of the range. -/
theorem witness_WrittenConfigurationReadsBack :
    let s (i : Instr) : State := { State.reset with frames := [encode i, encode (.readScratchpad dev.addr)] }
    let xs := List.replicate 7 (calm drawP1)
    let ys := List.replicate 13 (calm drawP1)
    (∀ i, (s i).cfg.wf ∧ (s i).rst = false ∧ (s i).st = .idle ∧ (s i).bus = ⟨[], [], [], []⟩ ∧
      (s i).timer.ends = [] ∧ dev.wf (s i).cfg ∧
      (s i).frames = [encode i, encode (.readScratchpad dev.addr)]) ∧
    (dev.phase ≠ .undefined ∧ dev.conv = none ∧ dev.recallLeft = none ∧ xs.length = 7 ∧ ys.length = 13 ∧ NoErr xs ∧ NoErr ys) ∧
    (WritesScratchpad Config.default dev.addr (.writeScratchpad addrA 0xFF 0xFF 0xFF) 0xFF 0xFF 0xFF ∧
      resCode Config.default .r12 = (0xFF : Byte).extractLsb' 5 2) ∧
    WritesScratchpad Config.default dev.addr (.setConfig addrA 0xFF80 0x007F .r9) 0x7F 0x80 0x1F ∧
    resCode Config.default .r9 = (0x1F : Byte).extractLsb' 5 2 :=
  ⟨fun _ => ⟨witness_Config_wf.1, rfl, rfl, rfl, rfl, (by decide +kernel : dev.wf Config.default), rfl⟩,
    ⟨nofun, rfl, rfl, rfl, rfl, fun _ h => List.eq_of_mem_replicate h ▸ rfl, fun _ h => List.eq_of_mem_replicate h ▸ rfl⟩,
    ⟨.inl rfl, by decide +kernel⟩,
    .inr ⟨0xFF80, 0x007F, .r9, rfl, by decide, by decide, by decide, by decide, by decide⟩, by decide +kernel⟩

/-- A device as slow as the delay allows. -/
theorem witness_CopyIsDoneWhenTheRequestCompletes :
    let d := { dev with writeUs := 10000 }
    let s : State := { State.reset with frames := [encode (.copyScratchpad d.addr)] }
    let xs := List.replicate 5 (calm drawP1)
    s.cfg.wf ∧ s.rst = false ∧ s.st = .idle ∧ s.bus = ⟨[], [], [], []⟩ ∧ s.timer.ends = [] ∧ d.wf s.cfg ∧ d.phase ≠ .undefined ∧
    d.writeUs ≤ 1000 * s.cfg.eepromWriteDelayMs.toNat ∧ d.recallLeft = none ∧
    s.frames = [encode (.copyScratchpad d.addr)] ∧ xs.length = 5 ∧ NoErr xs :=
  ⟨by decide +kernel, rfl, rfl, rfl, rfl, by decide +kernel, nofun, by decide +kernel, rfl, rfl, rfl,
    fun _ h => List.eq_of_mem_replicate h ▸ rfl⟩

end Sys2Proof.Tests
end

section
/-! PROOFS. What one request and one step can do: the inversion of a request's meaning into its bus phase and its end, the
frame of the bus phase, and the six forms of a step. -/

namespace Sys2Proof.Machine

open Sys2Proof.Claims

/-! ## The forms of a step (R21, R25, R85, R290, R291) -/

section Forms

variable {s : State}

theorem step_of_rst (h : s.rst = true) : step s = .next s.takeReset := by simp [step, h]

theorem step_of_latched {i : Instr} (hrst : s.rst = false) (hst : s.st = .busy) (hreq : s.req = some i) :
    step s = exec i s := by simp [step, hrst, hst, hreq]

theorem step_of_unlatched (hrst : s.rst = false) (hst : s.st = .busy) (hreq : s.req = none) :
    step s = .fault .reqUnspecified := by simp [step, hrst, hst, hreq]

theorem step_of_noFrame (hrst : s.rst = false) (hst : s.st = .idle) (hf : s.frames = []) : step s = .next s := by
  simp [step, hrst, hst, hf]

theorem step_of_request {f : List Byte} {rest : List (List Byte)} {i : Instr} (hrst : s.rst = false)
    (hst : s.st = .idle) (hf : s.frames = f :: rest) (hd : decodeFrame s.cfg f = .ok i) :
    step s = exec i { s with frames := rest } := by simp [step, hrst, hst, hf, hd]

theorem step_of_illegalFrame {f : List Byte} {rest : List (List Byte)} {why : Reject} (hrst : s.rst = false)
    (hst : s.st = .idle) (hf : s.frames = f :: rest) (hd : decodeFrame s.cfg f = .error why) :
    step s = .next (State.rejectFrame { s with frames := rest }) := by simp [step, hrst, hst, hf, hd]

end Forms

/-- Which of its six forms a step from `s` has. -/
inductive StepForm (s : State) : Prop where
  | reset (rst : s.rst = true)
  | latched (i : Instr) (rst : s.rst = false) (st : s.st = .busy) (req : s.req = some i)
  | unlatched (rst : s.rst = false) (st : s.st = .busy) (req : s.req = none)
  | noFrame (rst : s.rst = false) (st : s.st = .idle) (frames : s.frames = [])
  | request (f : List Byte) (rest : List (List Byte)) (i : Instr) (rst : s.rst = false) (st : s.st = .idle)
      (frames : s.frames = f :: rest) (decoded : decodeFrame s.cfg f = .ok i)
  | illegalFrame (f : List Byte) (rest : List (List Byte)) (why : Reject) (rst : s.rst = false) (st : s.st = .idle)
      (frames : s.frames = f :: rest) (decoded : decodeFrame s.cfg f = .error why)

theorem stepForm (s : State) : StepForm s := by
  cases hrst : s.rst with
  | true => exact .reset hrst
  | false =>
    cases hst : s.st with
    | busy =>
      cases hreq : s.req with
      | some i => exact .latched i hrst hst hreq
      | none => exact .unlatched hrst hst hreq
    | idle =>
      cases hf : s.frames with
      | nil => exact .noFrame hrst hst hf
      | cons f rest =>
        cases hd : decodeFrame s.cfg f with
        | ok i => exact .request f rest i hrst hst hf hd
        | error why => exact .illegalFrame f rest why hrst hst hf hd

/-! ## Which requests issue which steps (R217) -/

/-- The steps that only some requests issue: only the scratchpad reads write `rx`, only READ_POWER reads a bit, only
RECALL_EEPROM polls, and only it and COPY_SCRATCHPAD wait (R23, R208, R209, R213, R214). -/
def MayIssue (i : Instr) (p : SeqStep) : Prop :=
  match p with
  | .readInto _ => isScratchpadRead i
  | .readBit => ∃ a, i = .readPower a
  | .pollBit => ∃ a, i = .recallEeprom a
  | .delayMs _ => ∃ a, i = .copyScratchpad a ∨ i = .recallEeprom a
  | .reset | .select _ | .skip | .write _ => True

theorem mayIssue_of_mem_sequenceRow (c : Config) (i : Instr) : ∀ p ∈ sequenceRow c i, MayIssue i p := by
  cases i
  case recallEeprom a =>
    cases hp : c.recallPoll <;> simp [sequenceRow, rowRecallEeprom, openAddressed, MayIssue, hp]
  all_goals
    simp [sequenceRow, rowStartConvAddr, rowStartConvAll, rowReadScratchpad, rowWriteScratchpad, rowSetConfig,
      rowCopyScratchpad, rowReadPower, openAddressed, openBroadcast, MayIssue, isScratchpadRead]

/-- A pure request has no bus phase (R217). -/
theorem sequenceRow_eq_nil {i : Instr} (h : isBusRequest i = false) (c : Config) : sequenceRow c i = [] := by
  cases i <;> simp_all [isBusRequest, opcodeRow, opcodeOf, sequenceRow]

/-! ## The bus phase from a state to a later one -/

/-- The core issues one of the steps of `row` and takes its answer, a success or a failure (R203, R204). -/
def Issues (row : List SeqStep) (s t : State) : Prop :=
  ∃ p ∈ row, issue p s = .failed t ∨ ∃ bit, issue p s = .answered bit t

/-- The core issues some of the steps of `row`, none or many, one after another. -/
def Reaches (row : List SeqStep) : State → State → Prop := Relation.ReflTransGen (Issues row)

theorem Issues.mono {row row' : List SeqStep} {s t : State} (hsub : row ⊆ row') (h : Issues row s t) :
    Issues row' s t := by
  obtain ⟨p, hp, h⟩ := h
  exact ⟨p, hsub hp, h⟩

theorem Reaches.mono {row row' : List SeqStep} {s t : State} (hsub : row ⊆ row') (h : Reaches row s t) :
    Reaches row' s t :=
  Relation.ReflTransGen.mono (fun _ _ => Issues.mono hsub) _ _ h

theorem Ran.suffix {row row' : List SeqStep} {last last' : Option (BitVec 1)} {s t : State}
    (h : Ran row last s row' last' t) : row' <:+ row := by
  induction h with
  | here => exact List.suffix_refl _
  | step _ _ _ ih => exact ih.trans (List.suffix_cons _ _)

theorem Ran.reaches {row row' : List SeqStep} {last last' : Option (BitVec 1)} {s t : State}
    (h : Ran row last s row' last' t) : Reaches row s t := by
  induction h with
  | here => exact .refl
  | step answered _ _ ih =>
    exact .head ⟨_, List.mem_cons_self, .inr ⟨_, answered⟩⟩ (ih.mono (List.subset_cons_self _ _))

/-- How a run of a row that answers `t` ends, from the state `u` where its bus phase ended: it is blocked there, it raises
an error there, or it completes there (R200, R203). -/
inductive EndsAs (completion : Option (BitVec 1) → State → Result) (u : State) : State → Prop where
  | blocked : EndsAs completion u u
  | raised (e : ErrorKind) : EndsAs completion u (u.raise e)
  | completed {t : State} (bit : Option (BitVec 1)) (done : completion bit u = .next t) : EndsAs completion u t

/-- A run of a row is a bus phase and then its end. -/
theorem RanTo.reaches {completion : Option (BitVec 1) → State → Result} {row : List SeqStep}
    {last : Option (BitVec 1)} {s t : State} {out : Result} (h : RanTo completion row last s out)
    (hout : out = .next t) : ∃ u, Reaches row s u ∧ EndsAs completion u t := by
  have atHead {p : SeqStep} {rest : List SeqStep} {bit : Option (BitVec 1)} {u : State}
      (ran : Ran row last s (p :: rest) bit u) : p ∈ row := ran.suffix.subset List.mem_cons_self
  cases h with
  | blocked ran => cases hout; exact ⟨_, ran.reaches, .blocked⟩
  | failed ran fails => cases hout; exact ⟨_, ran.reaches.tail ⟨_, atHead ran, .inl fails⟩, .raised _⟩
  | polled ran answered => exact ⟨_, ran.reaches.tail ⟨_, atHead ran, .inr ⟨_, answered⟩⟩, .completed _ hout⟩
  | finished ran => exact ⟨_, ran.reaches, .completed _ hout⟩

/-- A request that was taken has run from `s'`: it was accepted there, or it goes on there (R21). -/
inductive TakenAt (i : Instr) (s : State) : State → Prop where
  | accepted (st : s.st = .idle) : TakenAt i s (s.accept i)
  | resumed (st : s.st = .busy) (req : s.req = some i) : TakenAt i s s

theorem TakenAt.of_exec_cases {i : Instr} {s s' : State}
    (h : s.st = .idle ∧ s' = s.accept i ∨ s.st = .busy ∧ s.req = some i ∧ s' = s) : TakenAt i s s' := by
  obtain ⟨hst, rfl⟩ | ⟨hst, hreq, rfl⟩ := h
  · exact .accepted hst
  · exact .resumed hst hreq

/-- Everything a request that answers `t` has done: nothing, while another one is running, or it was taken, went through
part of its row, and ended (R21, R200). -/
theorem exec_next_cases {i : Instr} {s t : State} (h : exec i s = .next t) :
    (s.st = .busy ∧ s.req ≠ some i ∧ t = s) ∨
    ∃ s' u, TakenAt i s s' ∧ Reaches (sequenceRow s.cfg i) s' u ∧ EndsAs (completionOf i) u t := by
  rcases exec_cases i s with ⟨s', htaken, hrun⟩ | ⟨hst, hreq, hnot⟩
  · have taken := TakenAt.of_exec_cases htaken
    refine .inr ⟨s', ?_⟩
    rcases hrun with ⟨e, -, herr⟩ | ⟨-, hran⟩
    · obtain rfl : s'.raise e = t := by simpa [herr] using h
      exact ⟨s', taken, .refl, .raised e⟩
    · obtain ⟨u, hu, hend⟩ := hran.reaches h
      exact ⟨u, taken, hu.mono (List.drop_subset _ _), hend⟩
  · exact .inl ⟨hst, hreq, by simpa [hnot] using h.symm⟩

/-! ## The frame of the bus phase -/

theorem Issues.onlyBusPhase {row : List SeqStep} {s t : State} (h : Issues row s t) :
    OnlyBusPhase s t ∧ ∃ es, t.trace = s.trace ++ es := by
  obtain ⟨p, -, h | ⟨bit, h⟩⟩ := h
  · obtain ⟨keep, -, -, e, -, -, htr⟩ := issue_failed h
    exact ⟨keep, [e], htr⟩
  · obtain ⟨keep, -, e, -, -, htr, -⟩ := issue_answered h
    exact ⟨keep, [e], htr⟩

/-- Only a read into `rx[i]` writes `rx` (R27). -/
theorem Issues.rx_eq {row : List SeqStep} {s t : State} (h : Issues row s t) (hrow : ∀ j, .readInto j ∉ row) :
    t.rx = s.rx := by
  obtain ⟨p, hp, h | ⟨bit, h⟩⟩ := h
  · obtain ⟨-, -, hrx, -⟩ := issue_failed h
    exact hrx
  · obtain ⟨-, -, e, -, -, -, hrx⟩ := issue_answered h
    cases p with
    | readInto j => exact absurd hp (hrow j)
    | _ => exact hrx

theorem issue_answered_timer {p : SeqStep} {s t : State} {bit : Option (BitVec 1)} (h : issue p s = .answered bit t)
    (hp : ∀ n, p ≠ .delayMs n) : t.timer = s.timer := by
  cases p with
  | delayMs n => exact absurd rfl (hp n)
  | _ =>
    simp only [issue, issueReset, issueAck, issueRead, issueReadBit] at h
    split at h <;> cases h
    rfl

/-- Only a delay uses the timing port (R23). -/
theorem Issues.timer_eq {row : List SeqStep} {s t : State} (h : Issues row s t) (hrow : ∀ n, .delayMs n ∉ row) :
    t.timer = s.timer := by
  obtain ⟨p, hp, h | ⟨bit, h⟩⟩ := h
  · exact (issue_failed_taken h).1
  · exact issue_answered_timer h fun n hn => hrow n (hn ▸ hp)

theorem Reaches.onlyBusPhase {row : List SeqStep} {s t : State} (h : Reaches row s t) :
    OnlyBusPhase s t ∧ ∃ es, t.trace = s.trace ++ es := by
  induction h with
  | refl => exact ⟨.refl s, [], by simp⟩
  | tail _ last ih =>
    obtain ⟨keep, es, htr⟩ := ih
    obtain ⟨keep', es', htr'⟩ := last.onlyBusPhase
    exact ⟨keep.trans keep', es ++ es', by simp [htr', htr]⟩

theorem Reaches.rx_eq {row : List SeqStep} {s t : State} (h : Reaches row s t) (hrow : ∀ j, .readInto j ∉ row) :
    t.rx = s.rx := by
  induction h with
  | refl => rfl
  | tail _ last ih => exact (last.rx_eq hrow).trans ih

theorem Reaches.timer_eq {row : List SeqStep} {s t : State} (h : Reaches row s t) (hrow : ∀ n, .delayMs n ∉ row) :
    t.timer = s.timer := by
  induction h with
  | refl => rfl
  | tail _ last ih => exact (last.timer_eq hrow).trans ih

theorem Reaches.eq_of_nil {s t : State} (h : Reaches [] s t) : t = s := by
  induction h with
  | refl => rfl
  | tail _ last _ => exact absurd last (by simp [Issues])

/-! ## The frame of a request's end and of its acceptance -/

/-- What ends a bus phase leaves alone: the parameters, `rx`, the reset input and every port. -/
theorem EndsAs.keeps {i : Instr} {u t : State} (h : EndsAs (completionOf i) u t) :
    t.cfg = u.cfg ∧ t.rx = u.rx ∧ t.rst = u.rst ∧ t.frames = u.frames ∧ t.bus = u.bus ∧ t.timer = u.timer ∧
      t.trace = u.trace := by
  cases h with
  | blocked | raised => simp
  | completed bit done => exact (completionOf_next done).2.1

/-- The completion of a request that makes no CRC computation leaves the CRC register alone (R28). -/
theorem completionOf_crc {i : Instr} {bit : Option (BitVec 1)} {s t : State} (hi : usesNoCrc i = true)
    (h : completionOf i bit s = .next t) : t.crc = s.crc ∧ t.freeCtr = s.freeCtr := by
  cases i <;>
    simp only [usesNoCrc, Bool.false_eq_true, completionOf, complete, completeEmpty, completeRecall,
      completePower] at hi h
  all_goals (repeat' split at h) <;> cases h <;> exact ⟨rfl, rfl⟩

theorem EndsAs.crc_eq {i : Instr} {u t : State} (hi : usesNoCrc i = true) (h : EndsAs (completionOf i) u t) :
    t.crc = u.crc ∧ t.freeCtr = u.freeCtr := by
  cases h with
  | blocked | raised => exact ⟨rfl, rfl⟩
  | completed bit done => exact completionOf_crc hi done

/-- Taking a request writes only the sequencer's and the response registers, and only if it accepts it (R24 to R29). -/
theorem TakenAt.keeps {i : Instr} {s s' : State} (h : TakenAt i s s') :
    s'.cfg = s.cfg ∧ s'.rst = s.rst ∧ s'.frames = s.frames ∧ s'.bus = s.bus ∧ s'.timer = s.timer ∧
      s'.trace = s.trace ∧ s'.crc = s.crc ∧ s'.freeCtr = s.freeCtr ∧ (s.st = .busy → s'.rx = s.rx) := by
  cases h with
  | accepted st => simp [st]
  | resumed => simp

end Sys2Proof.Machine

/-! ## The frame of every request and what it gives -/

namespace Sys2Proof

open Machine Claims

/-- Settles O44: a request that was taken changes only what its row's steps and its end change. -/
theorem requestFrame : Obligations.RequestFrame := by
  intro i s t h
  obtain ⟨-, -, rfl⟩ | ⟨s', u, htaken, hreach, hend⟩ := exec_next_cases h
  · simp
  obtain ⟨cfg₁, rst₁, frames₁, bus₁, timer₁, trace₁, crc₁, ctr₁, rx₁⟩ := htaken.keeps
  obtain ⟨keep, -⟩ := hreach.onlyBusPhase
  obtain ⟨cfg₂, rx₂, rst₂, frames₂, bus₂, timer₂, trace₂⟩ := hend.keeps
  have only := mayIssue_of_mem_sequenceRow s.cfg i
  refine ⟨by rw [cfg₂, keep.cfg, cfg₁], by rw [rst₂, keep.rst, rst₁], by rw [frames₂, keep.frames, frames₁],
    fun hcrc => ?_, fun hbusy hread => ?_, fun hpure => ?_, fun hdelay => ?_⟩
  · obtain ⟨crc₂, ctr₂⟩ := hend.crc_eq hcrc
    exact ⟨by rw [crc₂, keep.crc, crc₁], by rw [ctr₂, keep.freeCtr, ctr₁]⟩
  · rw [rx₂, hreach.rx_eq fun j hj => hread (only _ hj), rx₁ hbusy]
  · rw [sequenceRow_eq_nil hpure] at hreach
    obtain rfl := hreach.eq_of_nil
    exact ⟨trace₂.trans trace₁, bus₂.trans bus₁⟩
  · rw [timer₂, hreach.timer_eq fun n hn => ?_, timer₁]
    obtain ⟨a, ha⟩ := only _ hn
    obtain ⟨notCopy, notRecall⟩ := hdelay a
    exact ha.elim notCopy notRecall

theorem exec_keeps_cfg_extends_trace {i : Instr} {s t : State} (h : exec i s = .next t) :
    t.cfg = s.cfg ∧ ∃ es, t.trace = s.trace ++ es := by
  refine ⟨(requestFrame i s t h).1, ?_⟩
  obtain ⟨-, -, rfl⟩ | ⟨s', u, htaken, hreach, hend⟩ := exec_next_cases h
  · exact ⟨[], by simp⟩
  obtain ⟨-, -, -, -, -, htr₁, -⟩ := htaken.keeps
  obtain ⟨-, es, htr⟩ := hreach.onlyBusPhase
  obtain ⟨-, -, -, -, -, -, htr₂⟩ := hend.keeps
  exact ⟨es, by rw [htr₂, htr, htr₁]⟩

/-- Settles O55: the parameters are part of every request's frame, and the trace grows by the bus phase's events. -/
theorem stepsKeepParametersAndExtendTheTrace : Obligations.StepsKeepParametersAndExtendTheTrace := by
  intro s t h
  cases stepForm s with
  | reset hrst => cases (step_of_rst hrst).symm.trans h; exact ⟨rfl, [], by simp⟩
  | latched i hrst hst hreq => exact exec_keeps_cfg_extends_trace ((step_of_latched hrst hst hreq).symm.trans h)
  | unlatched hrst hst hreq => cases (step_of_unlatched hrst hst hreq).symm.trans h
  | noFrame hrst hst hf => cases (step_of_noFrame hrst hst hf).symm.trans h; exact ⟨rfl, [], by simp⟩
  | request f rest i hrst hst hf hd =>
    exact exec_keeps_cfg_extends_trace (s := { s with frames := rest }) ((step_of_request hrst hst hf hd).symm.trans h)
  | illegalFrame f rest why hrst hst hf hd =>
    cases (step_of_illegalFrame hrst hst hf hd).symm.trans h; exact ⟨rfl, [], by simp⟩

/-- Settles O45: it is the form of a step that finds a legal frame. -/
theorem stepRunsTheDecodedRequest : Obligations.StepRunsTheDecodedRequest :=
  fun _ _ _ _ hrst hst hf hd => step_of_request hrst hst hf hd

/-- Settles O47: the host's frames are part of the latched request's frame. -/
theorem busyStepHoldsTheFrames : Obligations.BusyStepHoldsTheFrames := by
  intro s i hrst hst hreq
  have hstep := step_of_latched hrst hst hreq
  refine ⟨hstep, fun t ht => ?_⟩
  obtain ⟨-, -, hframes, -⟩ := requestFrame i s t (hstep.symm.trans ht)
  exact hframes

/-- Settles O50: R38's values are those of the reset state. -/
theorem resetStateValues : Obligations.ResetStateValues :=
  ⟨rfl, rfl, rfl, fun j => by simp [State.reset, rxEmpty], rfl, rfl, rfl, rfl⟩

/-- Settles O52: IDLE without a request or a response, under the defaults of R8. -/
theorem resetStateIsSafe : Obligations.ResetStateIsSafe where
  params := by decide
  idle _ := ⟨rfl, rfl⟩
  busy h := nomatch h
  response := trivial

end Sys2Proof
end

section
/-! PROOFS. Every step keeps the invariant: a running request's place in its row and its receive buffer move together, so
its completion always finds what it reads. -/

namespace Sys2Proof.Machine

open Sys2Proof.Claims

/-! ## The decoder reads well-formed requests only (R81, R85) -/

theorem exists_of_map_eq_ok {ε α β : Type} {f : α → β} {x : Except ε α} {y : β} (h : x.map f = .ok y) :
    ∃ a, x = .ok a ∧ f a = y := by
  cases x with
  | error e => cases h
  | ok a => exact ⟨a, rfl, Except.ok.inj h⟩

theorem seqFits_of_fieldSeq {c : Config} {f bytes : List Byte} (h : fieldSeq c f = .ok bytes) :
    seqFits c bytes = true := by
  cases f with
  | nil => cases h
  | cons n rest =>
    simp only [fieldSeq] at h
    split at h
    · cases h
    · rename_i hn
      split at h
      · cases h
        simp only [seqFits, decide_eq_true_eq, BitVec.lt_def] at hn ⊢
        omega
      · cases h

/-- Only a SEQ operand can be ill-formed, and its decoder checks the length. -/
theorem wf_of_decodeFields {c : Config} {o : Opcode} {f : List Byte} {i : Instr} (h : decodeFields c o f = .ok i) :
    i.wf c = true := by
  cases o <;> simp only [decodeFields] at h <;>
    obtain ⟨x, hx, rfl⟩ := exists_of_map_eq_ok h
  case crcCompute | crcVerify => exact seqFits_of_fieldSeq hx
  all_goals rfl

theorem wf_of_decodeFrame {c : Config} {f : List Byte} {i : Instr} (h : decodeFrame c f = .ok i) : i.wf c = true := by
  cases f with
  | nil => cases h
  | cons op rest =>
    simp only [decodeFrame] at h
    split at h
    · cases h
    · exact wf_of_decodeFields h

/-! ## The place in the row and the receive buffer (R26, R27, R217) -/

theorem bytesReceived_eq_zero {i : Instr} (h : ¬ isScratchpadRead i) (k : Nat) : bytesReceived i k = 0 := by
  cases i with
  | readScratchpad a => exact absurd ⟨a, .inl rfl⟩ h
  | readData a => exact absurd ⟨a, .inr rfl⟩ h
  | _ => rfl

/-- The scratchpad reads have one row, and count its bytes alike (R208, R209). -/
theorem sequenceRow_of_isScratchpadRead {i : Instr} (h : isScratchpadRead i) (c : Config) :
    (∃ a, sequenceRow c i = rowReadScratchpad c a) ∧ ∀ k, bytesReceived i k = k - 3 := by
  obtain ⟨a, rfl | rfl⟩ := h <;> exact ⟨⟨a, rfl⟩, fun _ => rfl⟩

/-- Step `k` of a scratchpad read's row reads into `rx[j]` exactly if `k = j + 3` (R208). -/
theorem rowReadScratchpad_readInto {c : Config} {a : Addr} {k : Nat} {p : SeqStep}
    (h : (rowReadScratchpad c a)[k]? = some p) :
    (∃ j : Fin 9, p = .readInto j ∧ k = j + 3) ∨ ((∀ j, p ≠ .readInto j) ∧ k < 3) := by
  obtain ⟨hk, hp⟩ := List.getElem?_eq_some_iff.mp h
  replace hk : k < 12 := hk
  subst hp
  interval_cases k <;> simp [rowReadScratchpad, openAddressed]

/-- Issuing step `k` of a request's row receives a byte exactly if the step reads into `rx` (R27, R217). -/
theorem bytesReceived_succ {c : Config} {i : Instr} {k : Nat} {p : SeqStep} (h : (sequenceRow c i)[k]? = some p) :
    (∃ j : Fin 9, p = .readInto j ∧ bytesReceived i k = j ∧ bytesReceived i (k + 1) = j + 1) ∨
    ((∀ j, p ≠ .readInto j) ∧ bytesReceived i (k + 1) = bytesReceived i k) := by
  by_cases hi : isScratchpadRead i
  · obtain ⟨⟨a, hrow⟩, hcount⟩ := sequenceRow_of_isScratchpadRead hi c
    rw [hrow] at h
    simp only [hcount]
    obtain ⟨j, hp, hk⟩ | ⟨hp, hk⟩ := rowReadScratchpad_readInto h
    · exact .inl ⟨j, hp, by omega, by omega⟩
    · exact .inr ⟨hp, by omega⟩
  · have hp (j : Fin 9) : p ≠ .readInto j := by
      rintro rfl
      exact hi (mayIssue_of_mem_sequenceRow c i _ (List.mem_of_getElem? h))
    exact .inr ⟨hp, by simp [bytesReceived_eq_zero hi]⟩

theorem rxAfter_of_ne {p : SeqStep} (hp : ∀ j, p ≠ .readInto j) (e : Event) (rx : Vector (Option Byte) 9) :
    rxAfter p e rx = rx := by
  cases p with
  | readInto j => exact absurd rfl (hp j)
  | _ => rfl

theorem rxAfter_readInto {e : Event} (hprim : eventPrim e = .readByte) (hok : eventOk e = true) (j : Fin 9)
    (rx : Vector (Option Byte) 9) : ∃ b, rxAfter (.readInto j) e rx = rx.set j (some b) := by
  cases e <;> cases hprim
  case read x =>
    cases x with
    | ok b => exact ⟨b, rfl⟩
    | err => cases hok

/-- Exactly the bytes received up to `step` stand in `rx` (R27), and `step` has not passed the row (R26). -/
structure OnRow (i : Instr) (s : State) : Prop where
  step_le  : s.step ≤ (sequenceRow s.cfg i).length
  received : ∀ j : Fin 9, (s.rx[j]).isSome = decide (j.val < bytesReceived i s.step)

theorem OnRow.issue_answered {i : Instr} {p : SeqStep} {bit : Option (BitVec 1)} {s t : State} (hon : OnRow i s)
    (hp : (sequenceRow s.cfg i)[s.step]? = some p) (h : issue p s = .answered bit t) : OnRow i t := by
  obtain ⟨keep, hstep, e, hprim, hok, -, hrx⟩ := Machine.issue_answered h
  refine ⟨?_, fun j => ?_⟩
  · rw [keep.cfg, hstep]
    exact (List.getElem?_eq_some_iff.mp hp).1
  rw [hrx, hstep]
  obtain ⟨m, rfl, hbefore, hafter⟩ | ⟨hne, hsame⟩ := bytesReceived_succ hp
  · obtain ⟨b, hb⟩ := rxAfter_readInto hprim hok m s.rx
    have hj := hon.received j
    rw [hbefore] at hj
    rw [hb, hafter]
    by_cases hmj : m = j
    · simp [hmj]
    · have : m.val ≠ j.val := Fin.val_ne_of_ne hmj
      simp only [Fin.getElem_fin, Vector.getElem_set_ne _ _ this] at hj ⊢
      rw [hj]
      simp only [decide_eq_decide]
      omega
  · rw [rxAfter_of_ne hne, hsame]
    exact hon.received j

/-- Along the rest of a request's row, `step` and `rx` stay at the place reached. -/
theorem Ran.onRow {i : Instr} {row row' : List SeqStep} {last last' : Option (BitVec 1)} {s t : State}
    (h : Ran row last s row' last' t) (hrow : row = (sequenceRow s.cfg i).drop s.step) (hon : OnRow i s) :
    OnRow i t ∧ row' = (sequenceRow t.cfg i).drop t.step := by
  induction h with
  | here => exact ⟨hon, hrow⟩
  | @step p rest _ _ _ _ s s' _ answered _ _ ih =>
    obtain ⟨keep, hstep, -⟩ := issue_answered answered
    have hp : (sequenceRow s.cfg i)[s.step]? = some p := by rw [← List.head?_drop, ← hrow]; rfl
    have hrest : rest = (sequenceRow s'.cfg i).drop s'.step := by
      rw [keep.cfg, hstep, ← List.tail_drop, ← hrow]; rfl
    exact ih hrest (hon.issue_answered hp answered)

theorem issue_readBit_bit {s t : State} {bit : Option (BitVec 1)} (h : issue .readBit s = .answered bit t) :
    bit.isSome = true := by
  simp only [issue, issueReadBit] at h
  split at h <;> cases h
  rfl

/-- A row that ends in a read-bit hands its bit to the completion (R214). -/
theorem Ran.bit_isSome {row : List SeqStep} {last last' : Option (BitVec 1)} {s t : State}
    (h : Ran row last s [] last' t) (hrow : row.getLast? = some .readBit) : last'.isSome = true := by
  generalize hend : ([] : List SeqStep) = row' at h
  induction h with
  | here => subst hend; cases hrow
  | @step p rest _ _ _ _ _ _ _ answered _ more ih =>
    cases rest with
    | nil =>
      obtain rfl : p = .readBit := by simpa using hrow
      cases more
      exact issue_readBit_bit answered
    | cons q rest => exact ih (by simpa using hrow) hend

/-! ## A completion finds what it reads (R27, R208, R214) -/

theorem readRx_ok {s : State} (h : ∀ j : Fin 9, (s.rx[j]).isSome = true) : ∃ raw, readRx s = .ok raw := by
  choose b hb using fun j => Option.isSome_iff_exists.mp (h j)
  have hrx : s.rx = Vector.ofFn fun j => some (b j) := by
    ext j hj : 1
    simpa using hb ⟨j, hj⟩
  exact ⟨⟨b 0, b 1, b 2, b 3, b 4, b 5, b 6, b 7, b 8⟩, by rw [readRx, hrx]; rfl⟩

theorem completeRead_answers {s : State} (h : ∀ j : Fin 9, (s.rx[j]).isSome = true)
    (record : Raw9 → Res → List Byte) (bit : Option (BitVec 1)) : ∃ t, completeRead record bit s = .next t := by
  obtain ⟨raw, hraw⟩ := readRx_ok h
  exact ⟨decodeScratchpad record raw s, by simp only [completeRead, hraw]⟩

/-- A completion stops only on an unwritten `rx[i]` or on a missing bit. -/
theorem completionOf_answers {i : Instr} {bit : Option (BitVec 1)} {s : State}
    (hread : isScratchpadRead i → ∀ j : Fin 9, (s.rx[j]).isSome = true)
    (hpower : ∀ a, i = .readPower a → bit.isSome = true) : ∃ t, completionOf i bit s = .next t := by
  cases i with
  | readScratchpad a => exact completeRead_answers (hread ⟨a, .inl rfl⟩) _ bit
  | readData a => exact completeRead_answers (hread ⟨a, .inr rfl⟩) _ bit
  | readPower a =>
    obtain ⟨p, rfl⟩ := Option.isSome_iff_exists.mp (hpower a rfl)
    exact ⟨_, rfl⟩
  | _ =>
    simp only [completionOf, complete, completeEmpty, completeRecall]
    repeat' split
    all_goals exact ⟨_, rfl⟩

/-! ## The invariant where a request is taken, runs and ends -/

theorem inv_raise {s : State} (h : s.cfg.wf) (e : ErrorKind) : (s.raise e).Inv :=
  ⟨h, fun _ => ⟨rfl, rfl⟩, nofun, trivial⟩

theorem inv_of_completionOf {i : Instr} {bit : Option (BitVec 1)} {s t : State} (hwf : s.cfg.wf)
    (h : completionOf i bit s = .next t) : t.Inv := by
  obtain ⟨⟨hst, hreq, hstep⟩, ⟨hcfg, -⟩, hresp, -⟩ := completionOf_next h
  exact ⟨hcfg ▸ hwf, fun _ => ⟨hreq, hstep⟩, fun hb => (nomatch hst.symm.trans hb), hresp⟩

theorem OnlyBusPhase.responseOk {s t : State} (h : OnlyBusPhase s t) (hs : ResponseOk s) : ResponseOk t := by
  simpa only [ResponseOk, h.respValid, h.respStatus, h.respValue] using hs

/-- The request `i` is running, accepted or blocked in its row: what the invariant says then, and at acceptance. -/
structure Running (i : Instr) (s : State) : Prop where
  params     : s.cfg.wf
  wf         : i.wf s.cfg = true
  st         : s.st = .busy
  req        : s.req = some i
  noResponse : s.respValid = false
  response   : ResponseOk s
  onRow      : OnRow i s
  inRow      : s.step = 0 ∨ s.step < (sequenceRow s.cfg i).length

theorem TakenAt.running {i : Instr} {s s' : State} (h : TakenAt i s s') (hinv : s.Inv) (hwf : i.wf s.cfg = true) :
    Running i s' := by
  cases h with
  | accepted st =>
    refine ⟨hinv.params, hwf, rfl, rfl, rfl, trivial, ⟨Nat.zero_le _, fun j => ?_⟩, .inl rfl⟩
    have : bytesReceived i 0 = 0 := by cases i <;> rfl
    simp [rxEmpty, this]
  | resumed st req =>
    obtain ⟨noResponse, i', hreq, -, -, hstep, hrx⟩ := hinv.busy st
    obtain rfl : i = i' := Option.some.inj (req.symm.trans hreq)
    exact ⟨hinv.params, hwf, st, req, noResponse, hinv.response, ⟨hstep.le, hrx⟩, .inr hstep⟩

theorem checksPass_of_precheck {c : Config} {i : Instr} (h : precheck c i = none) : checksPass c i = true := by
  unfold precheck at h
  split at h
  · split at h
    · simp_all [checksPass]
    · cases h
  · cases h

/-- At the end of its row a running request has received what its completion reads (R27, R208, R214). -/
theorem Running.completionOf_answers {i : Instr} {bit : Option (BitVec 1)} {s t : State} (hrun : Running i s)
    (ran : Ran ((sequenceRow s.cfg i).drop s.step) none s [] bit t) : ∃ u, completionOf i bit t = .next u := by
  obtain ⟨hon, hrest⟩ := ran.onRow rfl hrun.onRow
  have hlen : (sequenceRow t.cfg i).length = t.step :=
    Nat.le_antisymm (List.drop_eq_nil_iff.mp hrest.symm) hon.step_le
  refine Machine.completionOf_answers (fun hread j => ?_) fun a hi => ?_
  · obtain ⟨⟨a, hrow⟩, hcount⟩ := sequenceRow_of_isScratchpadRead hread t.cfg
    have hstep : t.step = 12 := by rw [← hlen, hrow]; rfl
    rw [hon.received j, hcount, hstep]
    exact decide_eq_true j.isLt
  · subst hi
    have hlt : s.step < (sequenceRow s.cfg (.readPower a)).length :=
      hrun.inRow.elim (fun h0 => h0 ▸ Nat.succ_pos 3) id
    refine ran.bit_isSome ?_
    rw [List.getLast?_drop, if_neg (by omega)]
    rfl

/-- A running request that has passed its checks answers a state with the invariant, however its row ends. -/
theorem Running.keeps_inv {i : Instr} {s : State} {out : Result} (hrun : Running i s)
    (hcheck : precheck s.cfg i = none)
    (h : RanTo (completionOf i) ((sequenceRow s.cfg i).drop s.step) none s out) : ∃ t, out = .next t ∧ t.Inv := by
  have completed {bit : Option (BitVec 1)} {t : State} (hcfg : t.cfg = s.cfg)
      (h : ∃ u, completionOf i bit t = .next u) : ∃ u, completionOf i bit t = .next u ∧ u.Inv := by
    obtain ⟨u, hu⟩ := h
    exact ⟨u, hu, inv_of_completionOf (hcfg ▸ hrun.params) hu⟩
  cases h with
  | @blocked p rest bit t ran unanswered =>
    obtain ⟨keep, -⟩ := ran.effect
    obtain ⟨hon, hrest⟩ := ran.onRow rfl hrun.onRow
    have hlt : t.step < (sequenceRow t.cfg i).length := by
      by_contra hge
      rw [List.drop_eq_nil_of_le (not_lt.mp hge)] at hrest
      cases hrest
    exact ⟨t, rfl, keep.cfg ▸ hrun.params, fun hidle => (nomatch (keep.st.trans hrun.st).symm.trans hidle),
      fun _ => ⟨keep.respValid.trans hrun.noResponse, i, keep.req.trans hrun.req, keep.cfg ▸ hrun.wf,
        keep.cfg ▸ checksPass_of_precheck hcheck, hlt, hon.received⟩,
      keep.responseOk hrun.response⟩
  | failed ran fails =>
    obtain ⟨keep, -⟩ := ran.effect
    obtain ⟨keep', -⟩ := issue_failed fails
    exact ⟨_, rfl, inv_raise ((keep.trans keep').cfg ▸ hrun.params) _⟩
  | @polled p rest _ bit t t' ran answered ends =>
    obtain ⟨keep, -⟩ := ran.effect
    obtain ⟨keep', -⟩ := issue_answered answered
    obtain ⟨rfl, -⟩ : p = .pollBit ∧ bit = some 1 := by simpa [endsRow] using ends
    have hmem : .pollBit ∈ sequenceRow s.cfg i :=
      List.drop_subset _ _ (ran.suffix.subset List.mem_cons_self)
    obtain ⟨a, rfl⟩ := mayIssue_of_mem_sequenceRow _ _ _ hmem
    exact completed (keep.trans keep').cfg
      (Machine.completionOf_answers (fun ⟨_, h⟩ => by cases h <;> contradiction) nofun)
  | finished ran =>
    obtain ⟨keep, -⟩ := ran.effect
    exact completed keep.cfg (hrun.completionOf_answers ran)

theorem exec_keeps_inv {i : Instr} {s : State} (hinv : s.Inv) (hwf : i.wf s.cfg = true) :
    ∃ t, exec i s = .next t ∧ t.Inv := by
  obtain ⟨s', htaken, hrun⟩ | ⟨-, -, hnot⟩ := exec_cases i s
  · have taken := TakenAt.of_exec_cases htaken
    have running := taken.running hinv hwf
    obtain ⟨hcfg, -⟩ := taken.keeps
    obtain ⟨e, -, herr⟩ | ⟨hcheck, hran⟩ := hrun
    · exact ⟨_, herr, inv_raise running.params e⟩
    · rw [← hcfg] at hcheck hran
      exact running.keeps_inv hcheck hran
  · exact ⟨s, hnot, hinv⟩

end Sys2Proof.Machine

namespace Sys2Proof

open Machine Claims

/-- Settles O53, form by form of the step; the request that runs is well-formed because it was decoded, or because the
invariant says so of the latched one. -/
theorem stepKeepsTheInvariant : Obligations.StepKeepsTheInvariant := by
  intro s hinv
  cases stepForm s with
  | reset hrst => exact ⟨_, step_of_rst hrst, hinv.params, fun _ => ⟨rfl, rfl⟩, nofun, trivial⟩
  | latched i hrst hst hreq =>
    obtain ⟨-, i', hreq', hwf, -⟩ := hinv.busy hst
    obtain rfl : i = i' := Option.some.inj (hreq.symm.trans hreq')
    rw [step_of_latched hrst hst hreq]
    exact exec_keeps_inv hinv hwf
  | unlatched hrst hst hreq =>
    obtain ⟨-, i, hreq', -⟩ := hinv.busy hst
    cases hreq.symm.trans hreq'
  | noFrame hrst hst hf => exact ⟨s, step_of_noFrame hrst hst hf, hinv⟩
  | request f rest i hrst hst hf hd =>
    rw [step_of_request hrst hst hf hd]
    exact exec_keeps_inv ⟨hinv.params, hinv.idle, fun hb => (nomatch hst.symm.trans hb), hinv.response⟩
      (wf_of_decodeFrame hd)
  | illegalFrame f rest why hrst hst hf hd =>
    exact ⟨_, step_of_illegalFrame hrst hst hf hd,
      inv_raise (s := { s with frames := rest, rx := rxEmpty }) hinv.params _⟩

end Sys2Proof
end

section
/-! PROOFS. No request depends on an earlier one: two alike states stay alike through every operation, and their registers
agree from the moment a request is taken, completes or is abandoned. -/

namespace Sys2Proof.Machine

open Sys2Proof.Claims

/-! ## Two runs side by side -/

/-- What the same operation makes of two states: they are alike again, with the same events added; the registers stay in
agreement, and they come to agree where the request has ended. -/
structure InStep (s s' t t' : State) : Prop where
  alike     : Alike t t'
  events    : SameEvents s s' t t'
  registers : SameRegisters s s' ∨ t.st = .idle → SameRegisters t t'

theorem InStep.refl {s s' : State} (h : Alike s s') (hst : s.st = .busy) : InStep s s' s s' :=
  ⟨h, ⟨[], by simp⟩, fun hreg => hreg.resolve_right (by simp [hst])⟩

theorem InStep.trans {s s' t t' u u' : State} (h : InStep s s' t t') (k : InStep t t' u u') : InStep s s' u u' := by
  obtain ⟨es, htr, htr'⟩ := h.events
  obtain ⟨fs, hur, hur'⟩ := k.events
  exact ⟨k.alike, ⟨es ++ fs, by simp [hur, htr], by simp [hur', htr']⟩,
    fun hreg => k.registers (hreg.imp_left fun hs => h.registers (.inl hs))⟩

theorem inStep_raise {s s' : State} (h : Alike s s') (hst : s.st = .busy) (e : ErrorKind) :
    InStep s s' (s.raise e) (s'.raise e) := by
  obtain ⟨-, -, hrx⟩ := h.busy hst
  exact ⟨⟨h.cfg, rfl, h.bus, h.ends, nofun⟩, ⟨[], by simp⟩, fun _ => ⟨rfl, rfl, rfl, hrx, rfl, rfl, rfl⟩⟩

theorem inStep_respond {s s' : State} (h : Alike s s') (hst : s.st = .busy) (v : List Byte) :
    InStep s s' (s.respond v) (s'.respond v) := by
  obtain ⟨-, -, hrx⟩ := h.busy hst
  exact ⟨⟨h.cfg, rfl, h.bus, h.ends, nofun⟩, ⟨[], by simp⟩, fun _ => ⟨rfl, rfl, rfl, hrx, rfl, rfl, rfl⟩⟩

/-- The CRC register is no part of what a request goes by: a computation starts it afresh (R28). -/
theorem inStep_crcRelease {s s' : State} (h : Alike s s') (hst : s.st = .busy) :
    InStep s s' s.crcRelease s'.crcRelease :=
  ⟨⟨h.cfg, h.st, h.bus, h.ends, h.busy⟩, ⟨[], by simp⟩, fun hreg => hreg.resolve_right (by simp [hst])⟩

/-! ## Issuing a primitive in both -/

/-- Two alike states come to the same when they issue the same primitive. -/
inductive IssuedInStep (s s' : State) : Issued → Issued → Prop where
  | waiting : IssuedInStep s s' .waiting .waiting
  | failed {t t' : State} (same : InStep s s' t t') : IssuedInStep s s' (.failed t) (.failed t')
  | answered (bit : Option (BitVec 1)) {t t' : State} (same : InStep s s' t t') :
      IssuedInStep s s' (.answered bit t) (.answered bit t')

theorem issue_inStep {s s' : State} (h : Alike s s') (hst : s.st = .busy) (p : SeqStep) :
    IssuedInStep s s' (issue p s) (issue p s') := by
  obtain ⟨hreq, hstep, hrx⟩ := h.busy hst
  cases p <;>
    simp only [issue, issueReset, issueAck, issueRead, issueReadBit, issueDelay, h.bus, h.ends] <;> split
  all_goals constructor
  all_goals
    exact ⟨⟨h.cfg, h.st, by simp [h.bus], by simp [h.ends], by simp [hreq, hstep, hrx]⟩, ⟨_, rfl, rfl⟩,
      by simp +contextual [SameRegisters, hst]⟩

/-! ## Running a row and completing in both -/

/-- What two runs come to, from `s` and from `s'`: next states in step, or the same stop. -/
inductive SameOutcome (s s' : State) : Result → Result → Prop where
  | next {t t' : State} (same : InStep s s' t t') : SameOutcome s s' (.next t) (.next t')
  | fault (f : Fault) : SameOutcome s s' (.fault f) (.fault f)

theorem SameOutcome.after {s s' u u' : State} {out out' : Result} (h : InStep s s' u u')
    (k : SameOutcome u u' out out') : SameOutcome s s' out out' := by
  cases k with
  | next same => exact .next (h.trans same)
  | fault f => exact .fault f

theorem SameOutcome.inStep {s s' t t' : State} {out out' : Result} (h : SameOutcome s s' out out')
    (hout : out = .next t) (hout' : out' = .next t') : InStep s s' t t' := by
  cases h with
  | next same => cases hout; cases hout'; exact same
  | fault f => cases hout

/-- The decode goes by the parameters and the bytes it is given (R142, R144 to R146). -/
theorem decodeScratchpad_inStep {s s' : State} (h : Alike s s') (hst : s.st = .busy)
    (record : Raw9 → Res → List Byte) (raw : Raw9) :
    InStep s s' (decodeScratchpad record raw s) (decodeScratchpad record raw s') := by
  have released := inStep_crcRelease h hst
  simp only [decodeScratchpad, computeCrc_eq, crcRelease_cfg, h.cfg]
  split
  · split
    · exact released.trans (inStep_respond released.alike hst _)
    · exact released.trans (inStep_raise released.alike hst _)
  · exact released.trans (inStep_raise released.alike hst _)

theorem completeRead_sameOutcome {s s' : State} (h : Alike s s') (hst : s.st = .busy)
    (record : Raw9 → Res → List Byte) (bit : Option (BitVec 1)) :
    SameOutcome s s' (completeRead record bit s) (completeRead record bit s') := by
  obtain ⟨-, -, hrx⟩ := h.busy hst
  have hread : readRx s' = readRx s := by simp only [readRx, hrx]
  simp only [completeRead, hread]
  split
  · exact .next (decodeScratchpad_inStep h hst _ _)
  · exact .fault _

/-- A completion goes by the parameters, `rx` and the bit it is given. -/
theorem completionOf_sameOutcome {s s' : State} (h : Alike s s') (hst : s.st = .busy) (i : Instr)
    (bit : Option (BitVec 1)) : SameOutcome s s' (completionOf i bit s) (completionOf i bit s') := by
  have released := inStep_crcRelease h hst
  cases i with
  | crcCompute => exact .next (released.trans (inStep_respond released.alike hst _))
  | crcVerify =>
    simp only [completionOf]
    split
    · exact .next (inStep_respond h hst _)
    · exact .next (released.trans (inStep_respond released.alike hst _))
  | spDecode | sensorData => exact .next (decodeScratchpad_inStep h hst _ _)
  | readScratchpad | readData => exact completeRead_sameOutcome h hst _ bit
  | recallEeprom =>
    simp only [completionOf, completeRecall, h.cfg]
    split
    · exact .next (inStep_raise h hst _)
    · exact .next (inStep_respond h hst _)
  | fromRegBits =>
    simp only [completionOf, h.cfg]
    split
    · exact .next (inStep_respond h hst _)
    · exact .next (inStep_raise h hst _)
  | readPower =>
    cases bit with
    | some p => exact .next (inStep_respond h hst _)
    | none => exact .fault _
  | _ =>
    simp only [completionOf, complete, completeEmpty, h.cfg]
    exact .next (inStep_respond h hst _)

theorem runSteps_sameOutcome {s s' : State} (h : Alike s s') (hst : s.st = .busy) (i : Instr) (row : List SeqStep)
    (last : Option (BitVec 1)) :
    SameOutcome s s' (runSteps (completionOf i) row last s) (runSteps (completionOf i) row last s') := by
  induction row generalizing last s s' with
  | nil => exact completionOf_sameOutcome h hst i last
  | cons p rest ih =>
    have issued := issue_inStep h hst p
    simp only [runSteps]
    generalize hp : issue p s = out, issue p s' = out' at issued
    cases issued with
    | waiting => exact .next (.refl h hst)
    | failed same =>
      obtain ⟨keep, -⟩ := issue_failed hp
      exact .next (same.trans (inStep_raise same.alike (keep.st.trans hst) _))
    | answered bit same =>
      obtain ⟨keep, -⟩ := issue_answered hp
      have hst' := keep.st.trans hst
      dsimp only
      split
      · exact .after same (completionOf_sameOutcome same.alike hst' i bit)
      · exact .after same (ih same.alike hst' bit)

/-! ## A request and a step in both -/

/-- Accepting a request and going on with it is what offering it in IDLE does (R21, R200). -/
theorem exec_of_idle {i : Instr} {s : State} (h : s.st = .idle) : exec i s = exec i (s.accept i) := by
  rw [exec_eq, exec_eq]
  simp [enter, h]

theorem exec_sameOutcome {s s' : State} (h : Alike s s') (hst : s.st = .busy) (i : Instr) :
    SameOutcome s s' (exec i s) (exec i s') := by
  obtain ⟨hreq, hstep, -⟩ := h.busy hst
  rw [exec_eq, exec_eq]
  simp only [enter, h.st.trans hst, hst, hreq, h.cfg, runRow, hstep]
  split
  · split
    · exact .next (inStep_raise h hst _)
    · exact runSteps_sameOutcome h hst i _ none
  · exact .next (.refl h hst)

theorem alike_accept {s s' : State} (h : Alike s s') (i : Instr) : Alike (s.accept i) (s'.accept i) :=
  ⟨h.cfg, rfl, h.bus, h.ends, fun _ => ⟨rfl, rfl, rfl⟩⟩

/-- Two alike states take a request to alike states, with the same events; where it was accepted or has ended, the
registers agree (R32, R70). -/
theorem exec_alike {i : Instr} {s s' t t' : State} (h : Alike s s') (ht : exec i s = .next t)
    (ht' : exec i s' = .next t') :
    Alike t t' ∧ SameEvents s s' t t' ∧ (s.st = .idle ∨ t.st = .idle → SameRegisters t t') := by
  cases hst : s.st with
  | idle =>
    rw [exec_of_idle hst] at ht
    rw [exec_of_idle (h.st.trans hst)] at ht'
    have same := (exec_sameOutcome (alike_accept h i) rfl i).inStep ht ht'
    exact ⟨same.alike, same.events, fun _ => same.registers (.inl ⟨rfl, rfl, rfl, rfl, rfl, rfl, rfl⟩)⟩
  | busy =>
    have same := (exec_sameOutcome h hst i).inStep ht ht'
    exact ⟨same.alike, same.events, fun hend => same.registers (.inr (hend.resolve_left nofun))⟩

theorem alike_setFrames {s s' : State} (h : Alike s s') (fs : List (List Byte)) :
    Alike { s with frames := fs } { s' with frames := fs } :=
  ⟨h.cfg, h.st, h.bus, h.ends, h.busy⟩

end Sys2Proof.Machine

namespace Sys2Proof

open Machine Claims

/-- A request's step in two alike states: `exec_alike`, with the reset input and the frames, which no request writes. -/
theorem exec_alike_ports {i : Instr} {s s' t t' : State} (h : Alike s s') (hrst : s'.rst = s.rst)
    (hframes : s'.frames = s.frames) (ht : exec i s = .next t) (ht' : exec i s' = .next t') :
    Alike t t' ∧ t'.rst = t.rst ∧ t'.frames = t.frames ∧ SameEvents s s' t t' ∧
      (s.st = .idle ∨ t.st = .idle → SameRegisters t t') := by
  obtain ⟨-, rst, frames, -⟩ := requestFrame i s t ht
  obtain ⟨-, rst', frames', -⟩ := requestFrame i s' t' ht'
  obtain ⟨alike, events, registers⟩ := exec_alike h ht ht'
  exact ⟨alike, by rw [rst', hrst, rst], by rw [frames', hframes, frames], events, registers⟩

/-- Settles O56: a request by its run in step from both states, a step form by form, which is the same form in both. -/
theorem requestsDependOnNoEarlierRequest : Obligations.RequestsDependOnNoEarlierRequest := by
  intro s s' t t' h
  refine ⟨fun i => exec_alike h, fun hrst' hframes' ht ht' => ?_⟩
  cases stepForm s with
  | reset hrst =>
    cases (step_of_rst hrst).symm.trans ht
    cases (step_of_rst (hrst'.trans hrst)).symm.trans ht'
    exact ⟨⟨h.cfg, rfl, h.bus, h.ends, nofun⟩, rfl, hframes', ⟨[], by simp⟩,
      fun _ => ⟨rfl, rfl, rfl, rfl, rfl, rfl, rfl⟩⟩
  | latched i hrst hst hreq =>
    obtain ⟨hreq', -⟩ := h.busy hst
    rw [step_of_latched hrst hst hreq] at ht
    rw [step_of_latched (hrst'.trans hrst) (h.st.trans hst) (hreq'.trans hreq)] at ht'
    obtain ⟨alike, rst, frames, events, registers⟩ := exec_alike_ports h hrst' hframes' ht ht'
    exact ⟨alike, rst, frames, events, fun hend => registers (.inr (by simpa [hst, hrst] using hend))⟩
  | unlatched hrst hst hreq => cases (step_of_unlatched hrst hst hreq).symm.trans ht
  | noFrame hrst hst hf =>
    cases (step_of_noFrame hrst hst hf).symm.trans ht
    cases (step_of_noFrame (hrst'.trans hrst) (h.st.trans hst) (hframes'.trans hf)).symm.trans ht'
    exact ⟨h, hrst', hframes', ⟨[], by simp⟩, fun hend => by simp [hst, hrst, hf] at hend⟩
  | request f rest i hrst hst hf hd =>
    rw [step_of_request hrst hst hf hd] at ht
    rw [step_of_request (hrst'.trans hrst) (h.st.trans hst) (hframes'.trans hf) (h.cfg ▸ hd)] at ht'
    obtain ⟨alike, rst, frames, events, registers⟩ := exec_alike_ports (alike_setFrames h rest) hrst' rfl ht ht'
    exact ⟨alike, rst, frames, events, fun _ => registers (.inl hst)⟩
  | illegalFrame f rest why hrst hst hf hd =>
    cases (step_of_illegalFrame hrst hst hf hd).symm.trans ht
    cases (step_of_illegalFrame (hrst'.trans hrst) (h.st.trans hst) (hframes'.trans hf) (h.cfg ▸ hd)).symm.trans ht'
    exact ⟨⟨h.cfg, rfl, h.bus, h.ends, nofun⟩, hrst', rfl, ⟨[], by simp⟩,
      fun _ => ⟨rfl, rfl, rfl, rfl, rfl, rfl, rfl⟩⟩

end Sys2Proof
end

section
/-! PROOFS. A request that blocks goes on as if its answers had been there from the start, and the events of a request
taken from IDLE are the first of its row, whose selection, skip and delay steps only some requests have. -/

namespace Sys2Proof.Machine

open Sys2Proof.Claims

/-! ## A request that blocks (R59, R64) -/

/-- More answers behind the one that is taken make no difference to it. -/
theorem issue_supply (more : Transport) (ends : List Nat) {p : SeqStep} {s t : State} {bit : Option (BitVec 1)}
    (h : issue p s = .answered bit t) : issue p (supply more ends s) = .answered bit (supply more ends t) := by
  cases p <;> simp only [issue, issueReset, issueAck, issueRead, issueReadBit, issueDelay] at h ⊢ <;> split at h <;>
    cases h <;> (rename_i hq; simp only [supply, hq]; rfl)

/-- What was answered along a row is answered alike where more answers stand behind, so the run comes to where it
stood, with those answers ready. -/
theorem Ran.runSteps_supply (completion : Option (BitVec 1) → State → Result) (more : Transport) (ends : List Nat)
    {row row' : List SeqStep} {last last' : Option (BitVec 1)} {s t : State} (h : Ran row last s row' last' t) :
    runSteps completion row last (supply more ends s) = runSteps completion row' last' (supply more ends t) := by
  induction h with
  | here => rfl
  | step answered goesOn _ ih => simpa [runSteps, issue_supply more ends answered, goesOn] using ih

/-- A latched request whose checks pass goes on with its row at `step` (R21, R204). -/
theorem exec_of_latched {i : Instr} {s : State} (hst : s.st = .busy) (hreq : s.req = some i)
    (hpass : precheck s.cfg i = none) :
    exec i s = runSteps (completionOf i) ((sequenceRow s.cfg i).drop s.step) none s := by
  rw [exec_eq]
  simp [enter, hst, hreq, hpass, runRow]

/-- A request from IDLE that is not done has passed its checks and stands blocked in its row (R64, R201). -/
theorem exec_blocked_of_busy {i : Instr} {s t : State} (hidle : s.st = .idle) (h : exec i s = .next t)
    (hbusy : t.st = .busy) :
    precheck s.cfg i = none ∧
      ∃ p rest bit, Ran (sequenceRow s.cfg i) none (s.accept i) (p :: rest) bit t := by
  have notCompleted {bit : Option (BitVec 1)} {u : State} (done : completionOf i bit u = .next t) : False := by
    obtain ⟨⟨hst, -⟩, -⟩ := completionOf_next done
    simp [hst] at hbusy
  obtain ⟨s', ⟨-, rfl⟩ | ⟨hst, -⟩, hrun⟩ | ⟨hst, -⟩ := exec_cases i s
  case inl.inr | inr => simp [hst] at hidle
  obtain ⟨e, -, herr⟩ | ⟨hpass, hran⟩ := hrun
  · cases herr.symm.trans h
    cases hbusy
  refine ⟨hpass, ?_⟩
  rw [h] at hran
  generalize hout : (Host.Outcome.next t : Result) = out at hran
  cases hran with
  | blocked ran => cases hout; exact ⟨_, _, _, ran⟩
  | failed => cases hout; cases hbusy
  | polled => exact (notCompleted hout.symm).elim
  | finished => exact (notCompleted hout.symm).elim

/-! ## The events of a request from IDLE (R64, R70, R217) -/

/-- The events a run of a row adds are the row's primitives, from its start. -/
theorem RanTo.events {i : Instr} {row : List SeqStep} {last : Option (BitVec 1)} {s t : State} {out : Result}
    (h : RanTo (completionOf i) row last s out) (hout : out = .next t) :
    ∃ es, t.trace = s.trace ++ es ∧ es.map eventPrim <+: row.map stepPrim := by
  have andOneMore {p : SeqStep} {rest : List SeqStep} {bit : Option (BitVec 1)} {u u' : State} {e : Event}
      (ran : Ran row last s (p :: rest) bit u) (hprim : eventPrim e = stepPrim p) (htr : u'.trace = u.trace ++ [e]) :
      ∃ es, u'.trace = s.trace ++ es ∧ es.map eventPrim <+: row.map stepPrim := by
    obtain ⟨-, done, es, rfl, htr', hes, -⟩ := ran.effect
    exact ⟨es ++ [e], by simp [htr, htr'], by simp [hes, hprim]⟩
  cases h with
  | blocked ran =>
    cases hout
    obtain ⟨-, done, es, rfl, htr, hes, -⟩ := ran.effect
    exact ⟨es, htr, by simp [hes]⟩
  | failed ran fails =>
    cases hout
    obtain ⟨-, -, -, e, hprim, -, htr⟩ := issue_failed fails
    exact andOneMore ran hprim htr
  | polled ran answered =>
    obtain ⟨-, -, e, hprim, -, htr, -⟩ := issue_answered answered
    obtain ⟨-, ⟨-, -, -, -, -, -, hsame⟩, -⟩ := completionOf_next hout
    exact hsame ▸ andOneMore ran hprim htr
  | finished ran =>
    obtain ⟨-, done, es, rfl, htr, hes, -⟩ := ran.effect
    obtain ⟨-, ⟨-, -, -, -, -, -, hsame⟩, -⟩ := completionOf_next hout
    exact ⟨es, hsame.trans htr, by simp [hes]⟩

/-- The events a request from IDLE adds are the primitives of its row, from its start. -/
theorem exec_events_of_idle {i : Instr} {s t : State} {es : List Event} (hidle : s.st = .idle)
    (h : exec i s = .next t) (htr : t.trace = s.trace ++ es) :
    es.map eventPrim <+: (sequenceRow s.cfg i).map stepPrim := by
  obtain ⟨s', ⟨-, rfl⟩ | ⟨hst, -⟩, hrun⟩ | ⟨hst, -⟩ := exec_cases i s
  case inl.inr | inr => simp [hst] at hidle
  obtain ⟨e, -, herr⟩ | ⟨-, hran⟩ := hrun
  · cases herr.symm.trans h
    obtain rfl : es = [] := by simpa using htr
    exact List.nil_prefix
  · obtain ⟨es', htr', hes⟩ := hran.events h
    obtain rfl : es = es' := by simpa [htr] using htr'
    exact hes

theorem eq_select_of_eventPrim {e : Event} {a : Addr} (h : eventPrim e = .select a) : ∃ x, e = .select a x := by
  cases e <;> cases h
  exact ⟨_, rfl⟩

/-! ## Selections and skips in the rows (R53, R202) -/

/-- Every addressed bus request opens its sequence with its own selection. -/
theorem sequenceRow_of_addressOf {i : Instr} {a : Addr} (hbus : isBusRequest i = true) (ha : addressOf i = some a)
    (c : Config) : openAddressed a <+: sequenceRow c i := by
  cases i <;> cases ha
  case checkAddress => exact absurd hbus Bool.false_ne_true
  all_goals exact List.prefix_append _ _

/-- A selection is of the request's own address, and only START_CONV_ALL skips. -/
def SelectsOwn (i : Instr) (p : SeqStep) : Prop :=
  match p with
  | .select a => addressOf i = some a
  | .skip => i = .startConvAll
  | .reset | .write _ | .readInto _ | .readBit | .pollBit | .delayMs _ => True

theorem selectsOwn_of_mem_sequenceRow (c : Config) (i : Instr) : ∀ p ∈ sequenceRow c i, SelectsOwn i p := by
  cases i
  case recallEeprom a =>
    cases hp : c.recallPoll <;> simp [sequenceRow, rowRecallEeprom, openAddressed, SelectsOwn, addressOf, hp]
  all_goals
    simp [sequenceRow, rowStartConvAddr, rowStartConvAll, rowReadScratchpad, rowWriteScratchpad, rowSetConfig,
      rowCopyScratchpad, rowReadPower, openAddressed, openBroadcast, SelectsOwn, addressOf]

end Sys2Proof.Machine

namespace Sys2Proof

open Machine Claims

/-- Settles O57: the request stands blocked in its row, its place there is what it resumes from, and with the answers
supplied from the start its run comes to that place too. -/
theorem blockedRequestResumes : Obligations.BlockedRequestResumes := by
  intro i s t more ends hidle h hbusy
  obtain ⟨hpass, p, rest, bit, ran⟩ := exec_blocked_of_busy hidle h hbusy
  obtain ⟨keep, done, -, hrow, -, -, -, hstep⟩ := ran.effect
  have hrest : (sequenceRow t.cfg i).drop t.step = p :: rest := by
    rw [keep.cfg, accept_cfg, hstep, hrow]
    simp
  have hresumed : exec i (supply more ends t) = runSteps (completionOf i) (p :: rest) none (supply more ends t) :=
    hrest ▸ exec_of_latched (s := supply more ends t) hbusy keep.req (keep.cfg.symm ▸ hpass)
  have hstarted : exec i (supply more ends s) =
      runSteps (completionOf i) (sequenceRow s.cfg i) none (supply more ends (s.accept i)) :=
    (exec_of_idle (s := supply more ends s) hidle).trans
      (exec_of_latched (s := supply more ends (s.accept i)) rfl rfl hpass)
  calc exec i (supply more ends t)
      = runSteps (completionOf i) (p :: rest) none (supply more ends t) := hresumed
    _ = runSteps (completionOf i) (p :: rest) bit (supply more ends t) := rfl
    _ = exec i (supply more ends s) := (hstarted.trans (ran.runSteps_supply _ more ends)).symm

/-- Settles O41: a request's events are primitives of its row, where a selection, a skip and a delay stand only as its
operation has them, and the rows of addressed requests open with their selection. -/
theorem selectionAndDelayDiscipline : Obligations.SelectionAndDelayDiscipline := by
  intro i s t es hidle h htr
  have hprefix := exec_events_of_idle hidle h htr
  constructor
  · intro a hbus ha hlen
    have hselect := List.prefix_iff_getElem?.mp ((sequenceRow_of_addressOf hbus ha s.cfg).map stepPrim) 1
      (by simp [openAddressed])
    have hsecond := List.prefix_iff_getElem?.mp hprefix 1 (by rwa [List.length_map])
    have hprim : eventPrim es[1] = .select a := by
      simpa [openAddressed, stepPrim] using hsecond.symm.trans hselect
    obtain ⟨x, hx⟩ := eq_select_of_eventPrim hprim
    exact ⟨x, List.getElem?_eq_some_iff.mpr ⟨hlen, hx⟩⟩
  · intro e he
    obtain ⟨p, hp, hprim⟩ : ∃ p ∈ sequenceRow s.cfg i, stepPrim p = eventPrim e :=
      List.mem_map.mp (hprefix.subset (List.mem_map_of_mem he))
    have hsel := selectsOwn_of_mem_sequenceRow s.cfg i p hp
    have hmay := mayIssue_of_mem_sequenceRow s.cfg i p hp
    refine ⟨?_, ?_, ?_, ?_⟩
    · rintro x rfl
      cases p <;> cases hprim
      exact hsel
    · rintro a x rfl
      cases p <;> cases hprim
      exact hsel
    · rintro n rfl
      cases p <;> cases hprim
    · rintro n rfl
      cases p <;> cases hprim
      exact hmay

end Sys2Proof
end

section
/-! PROOFS. A scratchpad write that is cut short leaves a reference device as it was, but for its phase (R61, R75). -/

namespace Sys2Proof.Machine

/-- A data byte of a write that is not the third only waits at the device. -/
theorem devWrite_of_receiving (c : Config) (x : DevDraw) (b : Byte) {d : Device} {data : List Byte}
    (hph : d.phase = .receiving data) (hlen : data.length ≠ 2) :
    devWrite c x b d = { d with phase := .receiving (data ++ [b]) } := by
  match data with
  | [] | [_] | _ :: _ :: _ :: _ => simp [devWrite, hph]
  | [_, _] => exact absurd rfl hlen

/-- Fewer than three data bytes of a write change nothing but the device's phase. -/
theorem foldl_writeByte_of_receiving (c : Config) (x : DevDraw) {d : Device} {sent data : List Byte}
    (hph : d.phase = .receiving sent) (hlen : sent.length + data.length < 3) :
    data.foldl (fun d b => devTurn c x (.writeByte b) d) d = { d with phase := .receiving (sent ++ data) } := by
  induction data generalizing d sent with
  | nil => simp [← hph]
  | cons b rest ih =>
    simp only [List.length_cons] at hlen
    have hwrite : devTurn c x (.writeByte b) d = _ := devWrite_of_receiving c x b hph (by omega)
    rw [List.foldl_cons, hwrite, ih rfl (by simp only [List.length_append, List.length_singleton]; omega)]
    simp

/-- A data byte of a write that fails changes nothing but the device's phase, be it the third. -/
theorem devFailed_writeByte_of_receiving (c : Config) (x : DevDraw) (b : Byte) {d : Device} {data : List Byte}
    (hph : d.phase = .receiving data) : ∃ ph, devFailed c x (.writeByte b) d = { d with phase := ph } := by
  obtain ⟨_, _, _, -, -, he⟩ | ⟨hno, he⟩ := devFailed_cases c x (.writeByte b) d
  · exact ⟨d.phase, he⟩
  · have hlen : data.length ≠ 2 := fun h => by
      obtain ⟨th, tl, rfl⟩ := List.length_eq_two.mp h
      exact hno b th tl rfl hph
    exact ⟨.receiving (data ++ [b]), by simp [he, devCut, hph, devTurn, devWrite_of_receiving c x b hph hlen]⟩

end Sys2Proof.Machine

namespace Sys2Proof

open Machine

/-- Settles O58: before its third byte a write only waits at the device, a failing byte included, and a bus reset
forgets it. -/
theorem cutShortWriteChangesNothing : Obligations.CutShortWriteChangesNothing := by
  rintro c x d t data hph hlen rfl
  rw [foldl_writeByte_of_receiving c x hph (by simpa using hlen), List.nil_append]
  refine ⟨rfl, fun b => ?_⟩
  obtain ⟨ph, hfailed⟩ := devFailed_writeByte_of_receiving c x b (d := { d with phase := .receiving data }) rfl
  exact ⟨devFailed_writeByte_sp c x b _, (congrArg (devTurn c x .reset) hfailed).trans rfl⟩

end Sys2Proof
end

section
/-! PROOFS. The decoder and the encoder of the request frames are inverse to each other: the operand forms one by one,
then the operand fields of each operation, then the frame (R81 to R85, R89). -/

namespace Sys2Proof

open Machine

/-! ## The operand forms (R81, R82) -/

theorem eq_resByte_of_fieldRes {b : Byte} {r : Res} (h : fieldRes b = .ok r) : b = resByte r := by
  cases hr : resOfByte b with
  | none => simp [fieldRes, hr] at h
  | some r' =>
    obtain rfl : r' = r := by simpa [fieldRes, hr] using h
    exact (resByte_of_resOfByte hr).symm

/-- The length byte is the number of the bytes after it, so it is written back as it was read. -/
theorem eq_seqField_of_fieldSeq {c : Config} {f bytes : List Byte} (h : fieldSeq c f = .ok bytes) :
    f = seqField bytes := by
  match f, h with
  | n :: rest, h =>
    obtain ⟨hlen, rfl⟩ : rest.length = n.toNat ∧ rest = bytes := by
      simp only [fieldSeq] at h
      split at h
      · cases h
      · split at h <;> cases h
        exact ⟨‹_›, rfl⟩
    simp [seqField, hlen]

theorem eq_rawBytes_of_fieldRaw9 {f : List Byte} {raw : Raw9} (h : fieldRaw9 f = .ok raw) : f = rawBytes raw := by
  unfold fieldRaw9 at h
  split at h <;> cases h
  rfl

theorem eq_singleton_of_fieldFR {f : List Byte} {r : Res} (h : fieldFR f = .ok r) : f = [resByte r] := by
  match f, h with
  | [b], h => rw [eq_resByte_of_fieldRes h]

theorem eq_singleton_of_fieldFB {f : List Byte} {b : Byte} (h : fieldFB f = .ok b) : f = [b] := by
  unfold fieldFB at h
  split at h <;> cases h
  rfl

theorem eq_nil_of_fieldF0 {f : List Byte} {u : Unit} (h : fieldF0 f = .ok u) : f = [] := by
  unfold fieldF0 at h
  split at h <;> cases h
  rfl

theorem eq_of_fieldFT {f : List Byte} {x : Word16 × Res} (h : fieldFT f = .ok x) :
    f = [loByte x.1, hiByte x.1, resByte x.2] := by
  match f, h with
  | [lo, hi, b], h =>
    obtain ⟨r, hr, rfl⟩ := exists_of_map_eq_ok h
    simp [eq_resByte_of_fieldRes hr]

theorem eq_addrBytes_of_fieldFA {f : List Byte} {a : Addr} (h : fieldFA f = .ok a) : f = addrBytes a := by
  unfold fieldFA at h
  split at h <;> cases h
  rfl

theorem eq_append_of_fieldFW {f : List Byte} {x : Addr × Byte × Byte × Byte} (h : fieldFW f = .ok x) :
    f = addrBytes x.1 ++ [x.2.1, x.2.2.1, x.2.2.2] := by
  unfold fieldFW at h
  split at h <;> cases h
  rfl

theorem eq_append_of_fieldFC {f : List Byte} {x : Addr × Word16 × Word16 × Res} (h : fieldFC f = .ok x) :
    f = addrBytes x.1 ++ [loByte x.2.1, hiByte x.2.1, loByte x.2.2.1, hiByte x.2.2.1, resByte x.2.2.2] := by
  match f, h with
  | [a0, a1, a2, a3, a4, a5, a6, a7, l0, l1, h0, h1, b], h =>
    obtain ⟨r, hr, rfl⟩ := exists_of_map_eq_ok h
    simp [addrBytes, eq_resByte_of_fieldRes hr]

@[simp] theorem fieldFT_operands (t : Word16) (r : Res) : fieldFT [loByte t, hiByte t, resByte r] = .ok (t, r) := by
  simp [fieldFT, Except.map]

@[simp] theorem fieldFW_operands (a : Addr) (th tl cfg : Byte) :
    fieldFW (addrBytes a ++ [th, tl, cfg]) = .ok (a, th, tl, cfg) := rfl

@[simp] theorem fieldFC_operands (a : Addr) (lo hi : Word16) (r : Res) :
    fieldFC (addrBytes a ++ [loByte lo, hiByte lo, loByte hi, hiByte hi, resByte r]) = .ok (a, lo, hi, r) := by
  simp [fieldFC, addrBytes, Except.map]

/-! ## The operand fields of an operation (R82, R85) -/

/-- What an operation's decoder reads is a request of that operation, and the fields it read are that request's. -/
theorem encoded_of_decodeFields {c : Config} {o : Opcode} {f : List Byte} {i : Instr}
    (h : decodeFields c o f = .ok i) : opcodeOf i = o ∧ f = operandBytes i := by
  cases o <;> simp only [decodeFields] at h <;>
    obtain ⟨x, hx, rfl⟩ := exists_of_map_eq_ok h <;> refine ⟨rfl, ?_⟩
  case crcCompute | crcVerify => exact eq_seqField_of_fieldSeq hx
  case spDecode | sensorData => exact eq_rawBytes_of_fieldRaw9 hx
  case spEncodeConfig | convTime | regBits => exact eq_singleton_of_fieldFR hx
  case fromRegBits => exact eq_singleton_of_fieldFB hx
  case startConvAll => exact eq_nil_of_fieldF0 hx
  case tempConvert => exact eq_of_fieldFT hx
  case writeScratchpad => exact eq_append_of_fieldFW hx
  case setConfig => exact eq_append_of_fieldFC hx
  all_goals exact eq_addrBytes_of_fieldFA hx

theorem decodeFields_operandBytes {c : Config} {i : Instr} (h : i.wf c = true) :
    decodeFields c (opcodeOf i) (operandBytes i) = .ok i := by
  cases i
  case crcCompute bytes | crcVerify bytes =>
    have hseq : fieldSeq c (seqField bytes) = .ok bytes := fieldSeq_seqField h
    simp [decodeFields, opcodeOf, operandBytes, hseq, Except.map]
  case fromRegBits | startConvAll => rfl
  all_goals simp [decodeFields, opcodeOf, operandBytes, Except.map]

/-! ## The frame (R80, R83, R85, R89) -/

/-- The decoder accepts a frame exactly if its OP selects an operation whose decoder accepts the rest. -/
theorem decodeFrame_eq_ok {c : Config} {f : List Byte} {i : Instr} :
    decodeFrame c f = .ok i ↔
      ∃ op rest o, f = op :: rest ∧ opcodeOfByte op = some o ∧ decodeFields c o rest = .ok i := by
  cases f with
  | nil => simp [decodeFrame]
  | cons op rest => cases ho : opcodeOfByte op <;> simp [decodeFrame, ho]

/-- Settles O2: OP selects the request's operation, whose decoder reads its operand fields back. -/
theorem decodeOfEncodeIsTheRequest : Obligations.DecodeOfEncodeIsTheRequest :=
  fun _ i hwf => decodeFrame_eq_ok.mpr ⟨_, _, opcodeOf i, rfl, opcodeOfByte_op _, decodeFields_operandBytes hwf⟩

/-- Settles O3: the operation that OP selects has that OP in the map, and its operand fields are written as they were
read. -/
theorem onlyEncodedRequestsDecode : Obligations.OnlyEncodedRequestsDecode := by
  intro c f i h
  refine ⟨?_, wf_of_decodeFrame h⟩
  obtain ⟨op, rest, o, rfl, hop, hfields⟩ := decodeFrame_eq_ok.mp h
  obtain ⟨rfl, rfl⟩ := encoded_of_decodeFields hfields
  rw [encode, op_of_opcodeOfByte hop]

/-- Settles O1: the decoder runs on each of the ten frames. -/
theorem specFramesDecode : Obligations.SpecFramesDecode :=
  ⟨rfl, rfl, rfl, rfl, rfl, rfl, rfl, rfl, rfl, rfl⟩

/-! ## The length of a frame (R82, R84) -/

theorem frameLength (i : Instr) : Laws.FrameLength.Statement i := by
  cases i
  case crcCompute bytes => exact Laws.FrameLength.crcCompute bytes
  case crcVerify bytes => exact Laws.FrameLength.crcVerify bytes
  all_goals exact fun _ _ => rfl

/-- Only format FS has a length that a length byte gives. -/
theorem formatLength_eq (fmt : Format) (n : Nat) :
    formatLength fmt n = if fmt = .FS then 2 + n else formatLength fmt 0 := by
  cases fmt <;> rfl

/-- Settles O4: an accepted frame is the frame of a well-formed request, and has the length of its format. -/
theorem frameLengthComesFromOpcode : Obligations.FrameLengthComesFromOpcode := by
  intro c f i h
  obtain ⟨rfl, hwf⟩ := onlyEncodedRequestsDecode c f i h
  exact ⟨_, opcodeOf i, rfl, opcodeOfByte_op _, (frameLength i c hwf).trans (formatLength_eq _ _)⟩

end Sys2Proof
end

section
/-! PROOFS. A frame that spells no request, and the response frame the host reads (R85, R86, R88). -/

namespace Sys2Proof

open Machine

/-- Settles O46: it is the form of a step that finds an illegal frame, and the rejection is an IllegalRequest. -/
theorem illegalFrameCompletesAtOnce : Obligations.IllegalFrameCompletesAtOnce :=
  fun _ _ _ _ hrst hst hf hd => step_of_illegalFrame hrst hst hf hd

/-- Settles O51: the host's reads give what the completion or the acceptance left in the response registers. -/
theorem responseFrameIsStatusThenValue : Obligations.ResponseFrameIsStatusThenValue :=
  fun _ _ _ => ⟨rfl, rfl, rfl, fun _ => rfl, rfl⟩

end Sys2Proof
end

section
/-! PROOFS. The CRC-8 checker: the byte update is linear and vanishes only on equal arguments, which gives the residue and
the detection of every single-bit error; and the two requests' whole next states. -/

namespace Sys2Proof.Machine

open Sys2Proof.Claims

/-! ## The bit update (R121) -/

/-- The feedback is what R121's XOR adds to the shifted register. -/
theorem crc8Bit_eq (c : Byte) (inbit : Bool) :
    crc8Bit c inbit = (c >>> 1) ^^^ (if (c.getLsbD 0 ^^ inbit) then 0x8C else 0x00) := by
  unfold crc8Bit
  split <;> simp

theorem crc8Bit_xor (c c' : Byte) (b b' : Bool) :
    crc8Bit (c ^^^ c') (b ^^ b') = crc8Bit c b ^^^ crc8Bit c' b' := by
  have feedback (f f' : Bool) : (if (f ^^ f') then 0x8C else 0x00 : Byte) =
      (if f then 0x8C else 0x00) ^^^ (if f' then 0x8C else 0x00) := by cases f <;> cases f' <;> rfl
  have shuffle : (c.getLsbD 0 ^^ c'.getLsbD 0 ^^ (b ^^ b')) = ((c.getLsbD 0 ^^ b) ^^ (c'.getLsbD 0 ^^ b')) := by
    simp only [Bool.xor_assoc, Bool.xor_left_comm]
  simp only [crc8Bit_eq, BitVec.ushiftRight_xor_distrib, BitVec.getLsbD_xor, shuffle, feedback]
  ac_rfl

/-- Feedback shows in the top bit, which the shift leaves clear; without feedback the bit shifted out was clear. -/
theorem crc8Bit_false_eq_zero {c : Byte} : crc8Bit c false = 0x00 ↔ c = 0x00 := by
  refine ⟨fun h => ?_, by rintro rfl; rfl⟩
  rw [crc8Bit_eq, Bool.xor_false] at h
  split at h
  · have top := congrArg (BitVec.getLsbD · 7) h
    simp at top
  · refine BitVec.eq_of_getLsbD_eq fun i _ => ?_
    cases i with
    | zero => exact eq_false_of_ne_true ‹_›
    | succ i => simpa [Nat.add_comm] using congrArg (BitVec.getLsbD · i) h

/-! ## The byte update (R121, R127) -/

theorem foldl_crc8Bit_xor (ks : List Nat) (c c' b b' : Byte) :
    ks.foldl (fun acc k => crc8Bit acc ((b ^^^ b').getLsbD k)) (c ^^^ c') =
      ks.foldl (fun acc k => crc8Bit acc (b.getLsbD k)) c ^^^ ks.foldl (fun acc k => crc8Bit acc (b'.getLsbD k)) c' := by
  induction ks generalizing c c' with
  | nil => rfl
  | cons k ks ih => simp only [List.foldl_cons, BitVec.getLsbD_xor, crc8Bit_xor, ← ih]

theorem crc8Byte_xor (c c' b b' : Byte) : crc8Byte (c ^^^ c') (b ^^^ b') = crc8Byte c b ^^^ crc8Byte c' b' :=
  foldl_crc8Bit_xor _ c c' b b'

/-- Fed its own bits, the register never feeds back: each step only shifts. -/
theorem foldl_crc8Bit_self (n : Nat) (c : Byte) :
    (List.range n).foldl (fun acc k => crc8Bit acc (c.getLsbD k)) c = c >>> n := by
  induction n with
  | zero => simp
  | succ n ih =>
    rw [List.range_succ, List.foldl_append, ih]
    simp [crc8Bit, BitVec.shiftRight_add]

@[simp] theorem crc8Byte_self (c : Byte) : crc8Byte c c = 0x00 :=
  (foldl_crc8Bit_self 8 c).trans (BitVec.ushiftRight_eq_zero (by decide))

/-- The pair `(c, b)` is the pair `(0, c ^ b)` plus `(c, c)`, which the update sends to zero. -/
theorem crc8Byte_eq_table (c b : Byte) : crc8Byte c b = crc8Byte 0x00 (c ^^^ b) := by
  simpa [BitVec.xor_comm c b, BitVec.xor_assoc] using crc8Byte_xor 0x00 c (c ^^^ b) c

theorem crc8Byte_zero_right_eq_zero {c : Byte} : crc8Byte c 0x00 = 0x00 ↔ c = 0x00 := by
  have fold (ks : List Nat) (c : Byte) :
      ks.foldl (fun acc k => crc8Bit acc ((0x00 : Byte).getLsbD k)) c = 0x00 ↔ c = 0x00 := by
    induction ks generalizing c with
    | nil => rfl
    | cons k ks ih => exact (ih _).trans (by simpa using crc8Bit_false_eq_zero)
  exact fold _ c

theorem crc8Byte_eq_zero {c b : Byte} : crc8Byte c b = 0x00 ↔ c = b := by
  have swap : crc8Byte c b = crc8Byte (c ^^^ b) 0x00 := by
    rw [crc8Byte_eq_table c, crc8Byte_eq_table (c ^^^ b)]
    exact congrArg _ BitVec.xor_zero.symm
  rw [swap, crc8Byte_zero_right_eq_zero]
  exact BitVec.xor_eq_zero_iff

/-! ## The CRC of a sequence (R122, R125) -/

theorem crc8_concat_eq_zero {bytes : List Byte} {last : Byte} : crc8 (bytes ++ [last]) = 0x00 ↔ crc8 bytes = last := by
  rw [crc8_concat, crc8Byte_eq_zero]

theorem foldl_crc8Byte_xor {xs ys : List Byte} (h : xs.length = ys.length) (c c' : Byte) :
    (List.zipWith (· ^^^ ·) xs ys).foldl crc8Byte (c ^^^ c') = xs.foldl crc8Byte c ^^^ ys.foldl crc8Byte c' := by
  induction xs generalizing ys c c' with
  | nil => cases ys with
    | nil => rfl
    | cons y ys => cases h
  | cons x xs ih => cases ys with
    | nil => cases h
    | cons y ys => simp only [List.zipWith_cons_cons, List.foldl_cons, crc8Byte_xor, ih (Nat.succ.inj h)]

theorem crc8_zipWith_xor {xs ys : List Byte} (h : xs.length = ys.length) :
    crc8 (List.zipWith (· ^^^ ·) xs ys) = crc8 xs ^^^ crc8 ys := foldl_crc8Byte_xor h 0x00 0x00

theorem foldl_crc8Byte_zeros_eq_zero {n : Nat} {c : Byte} :
    (List.replicate n 0x00).foldl crc8Byte c = 0x00 ↔ c = 0x00 := by
  induction n generalizing c with
  | zero => rfl
  | succ n ih => rw [List.replicate_succ, List.foldl_cons, ih, crc8Byte_zero_right_eq_zero]

/-! ## One flipped bit (R126) -/

@[simp] theorem length_flipBit (bytes : List Byte) (k j : Nat) : (flipBit bytes k j).length = bytes.length :=
  List.length_modify ..

/-- Flipping a bit is adding the sequence in which that bit alone is set. -/
theorem flipBit_eq_zipWith_xor (bytes : List Byte) (k j : Nat) :
    flipBit bytes k j = List.zipWith (· ^^^ ·) bytes (flipBit (List.replicate bytes.length 0x00) k j) := by
  refine List.ext_getElem (by simp) fun i _ _ => ?_
  simp only [flipBit, List.getElem_modify, List.getElem_zipWith, List.getElem_replicate]
  split <;> simp

theorem crc8_flipBit (bytes : List Byte) (k j : Nat) :
    crc8 (flipBit bytes k j) = crc8 bytes ^^^ crc8 (flipBit (List.replicate bytes.length 0x00) k j) := by
  rw [flipBit_eq_zipWith_xor, crc8_zipWith_xor (by simp)]

theorem flipBit_zeros (m n j : Nat) :
    flipBit (List.replicate (m + (n + 1)) 0x00) m j =
      List.replicate m 0x00 ++ ((1 : Byte) <<< j) :: List.replicate n 0x00 := by
  induction m with
  | zero => simp [flipBit, List.replicate_succ]
  | succ m ih =>
    rw [Nat.add_right_comm, List.replicate_succ, List.replicate_succ]
    simpa [flipBit] using ih

/-- The bytes before the flipped bit leave the register zero; the flipped bit makes it nonzero, and the bytes after it
keep it so. -/
theorem crc8_flipBit_zeros_ne_zero {n k j : Nat} (hk : k < n) (hj : j < 8) :
    crc8 (flipBit (List.replicate n 0x00) k j) ≠ 0x00 := by
  obtain ⟨m, rfl⟩ := Nat.exists_eq_add_of_lt hk
  have bit : ∀ j < 8, (0x00 : Byte) ≠ (1 : Byte) <<< j := by decide
  have before : (List.replicate k 0x00).foldl crc8Byte 0x00 = 0x00 := foldl_crc8Byte_zeros_eq_zero.mpr rfl
  rw [Nat.add_assoc, flipBit_zeros, crc8, List.foldl_append, before, List.foldl_cons, ne_eq,
    foldl_crc8Byte_zeros_eq_zero, crc8Byte_eq_zero]
  exact bit j hj

/-! ## A pure request from IDLE (R21, R200) -/

theorem exec_of_idle_pure {i : Instr} {s : State} (hst : s.st = .idle) (hpre : precheck s.cfg i = none)
    (hpure : isBusRequest i = false) : exec i s = completionOf i none (s.accept i) := by
  simp [exec_eq, enter, hst, hpre, sequenceRow_eq_nil hpure, runRow, runSteps]

theorem respond_crcRelease_accept (i : Instr) (v : List Byte) (s : State) :
    (s.accept i).crcRelease.respond v = finished v (crcUsed s) := rfl

end Sys2Proof.Machine

namespace Sys2Proof

open Machine Claims

/-- Settles O8: the request's completion answers the CRC and releases the register. -/
theorem crcComputeAnswersTheCrc : Obligations.CrcComputeAnswersTheCrc := by
  intro bytes s hst
  rw [exec_of_idle_pure hst rfl rfl, completionOf, complete, respond_crcRelease_accept]

/-- Settles O9: the request's completion splits on whether there is a last byte. -/
theorem crcVerifyComparesTheLastByte : Obligations.CrcVerifyComparesTheLastByte := by
  refine fun s hst => ⟨exec_of_idle_pure hst rfl rfl, fun bytes last => ?_⟩
  rw [exec_of_idle_pure hst rfl rfl]
  simp only [completionOf, List.getLast?_concat, List.dropLast_concat, complete, boolByte, beq_iff_eq,
    respond_crcRelease_accept]

/-- Settles O5: the table form follows from linearity, since equal arguments update to zero. -/
theorem crcByteIsALinearTable : Obligations.CrcByteIsALinearTable :=
  ⟨crc8Byte_xor, crc8Byte_eq_table, rfl, rfl, rfl⟩

/-- Settles O6: the update to zero exactly on equal arguments makes a zero CRC the same as a matching last byte. -/
theorem crcResidueIsZero : Obligations.CrcResidueIsZero := by
  refine ⟨fun bytes => crc8_concat_eq_zero.mpr rfl, fun bytes s hlen hst => ?_⟩
  obtain rfl | ⟨init, last, rfl⟩ := List.eq_nil_or_concat' bytes
  · cases hlen
  · obtain ⟨-, verify⟩ := crcVerifyComparesTheLastByte s hst
    simp only [verify, crc8_concat_eq_zero]

/-- Settles O7: the flip adds the CRC of its bit to a residue that is zero. -/
theorem singleBitFlipIsDetected : Obligations.SingleBitFlipIsDetected := by
  intro bytes k j s hk hj hst
  obtain ⟨residue, verify⟩ := crcResidueIsZero
  have linear := crc8_flipBit (bytes ++ [crc8 bytes]) k j
  rw [List.length_append, List.length_singleton] at linear
  have bitNe := crc8_flipBit_zeros_ne_zero (Nat.lt_succ_of_le hk) hj
  have flipNe : crc8 (flipBit (bytes ++ [crc8 bytes]) k j) ≠ 0x00 := by
    rw [linear, residue]
    exact BitVec.zero_xor.trans_ne bitNe
  refine ⟨linear, bitNe, flipNe, ?_⟩
  rw [verify _ s (by simp) hst, if_neg flipNe]

end Sys2Proof
end

section
/-! PROOFS. The scratchpad codec: the configuration byte is its code over the reserved bits, the decode of a scratchpad
reads nothing before its CRC, and a scratchpad read decodes the bytes it received or answers no OK. -/

namespace Sys2Proof.Machine

open Sys2Proof.Claims

/-! ## The resolution codes (R8, R95) -/

/-- Four distinct codes are all the codes there are. -/
theorem exists_resCode_eq {c : Config} (h : c.wf) (code : BitVec 2) : ∃ r, resCode c r = code := by
  obtain ⟨-, distinct, -⟩ := h
  by_contra! unused
  have new : code ∉ [c.code9, c.code10, c.code11, c.code12] := by
    simpa using ⟨(unused .r9).symm, (unused .r10).symm, (unused .r11).symm, (unused .r12).symm⟩
  have five := ((List.nodup_cons.mpr ⟨new, distinct⟩).map fun _ _ => BitVec.eq_of_toFin_eq).length_le_card
  exact absurd five (by simp)

theorem resOfCode_eq_some {c : Config} (h : c.wf) {code : BitVec 2} {r : Res} :
    resOfCode c code = some r ↔ resCode c r = code := by
  refine ⟨resCode_of_resOfCode, ?_⟩
  rintro rfl
  exact resOfCode_resCode h r

/-! ## The bits of the configuration byte (R94, R143) -/

/-- A byte is its bits 6:5 over the others. -/
theorem bits65_or_rest (b : Byte) : (b.extractLsb' 5 2).setWidth 8 <<< 5 ||| (b &&& 0x9F) = b := by
  ext i hi
  interval_cases i <;> simp

theorem bit5_bit6_eq_false {v : Byte} (h : v &&& 0x60 = 0) : v[5] = false ∧ v[6] = false := by
  have clear (i : Nat) : (v &&& 0x60).getLsbD i = false := by rw [h]; exact BitVec.getLsbD_zero
  exact ⟨by simpa [BitVec.getLsbD_eq_getElem] using clear 5, by simpa [BitVec.getLsbD_eq_getElem] using clear 6⟩

/-- A code set over bits that leave 6:5 clear leaves the others as they are. -/
theorem code_or_and_rest {v : Byte} (h : v &&& 0x60 = 0) (code : BitVec 2) :
    (code.setWidth 8 <<< 5 ||| v) &&& 0x9F = v := by
  obtain ⟨h5, h6⟩ := bit5_bit6_eq_false h
  ext i hi
  interval_cases i <;> simp [h5, h6]

theorem bits65_code_or {v : Byte} (h : v &&& 0x60 = 0) (code : BitVec 2) :
    (code.setWidth 8 <<< 5 ||| v).extractLsb' 5 2 = code := by
  obtain ⟨h5, h6⟩ := bit5_bit6_eq_false h
  ext i hi
  interval_cases i <;> simp [h5, h6, BitVec.getLsbD_eq_getElem]

/-! ## The configuration byte (R141, R143) -/

theorem cfgDecode_eq_some_of_strict {c : Config} (h : c.cfgStrict = true) {b : Byte} {r : Res} :
    cfgDecode c b = some r ↔
      b &&& c.cfgReservedMask = c.cfgReservedValue &&& c.cfgReservedMask ∧
        resOfCode c (b.extractLsb' 5 2) = some r := by
  by_cases hb : b &&& c.cfgReservedMask = c.cfgReservedValue &&& c.cfgReservedMask <;> simp [cfgDecode, h, hb]

theorem cfgDecode_of_not_strict {c : Config} (h : c.cfgStrict = false) (b : Byte) :
    cfgDecode c b = resOfCode c (b.extractLsb' 5 2) := by simp [cfgDecode, h]

/-- R8's mask takes a configuration byte apart into its code and the reserved bits. -/
theorem eq_encodeConfig {c : Config} (h : c.wf) {b : Byte} {r : Res} :
    b = encodeConfig c r ↔
      b &&& c.cfgReservedMask = c.cfgReservedValue &&& c.cfgReservedMask ∧ resCode c r = b.extractLsb' 5 2 := by
  obtain ⟨-, -, clear, mask, -⟩ := h
  have reserved : c.cfgReservedValue &&& 0x9F = c.cfgReservedValue := by simpa using code_or_and_rest clear 0
  rw [mask, reserved, encodeConfig]
  constructor
  · rintro rfl
    exact ⟨code_or_and_rest clear _, (bits65_code_or clear _).symm⟩
  · rintro ⟨rest, code⟩
    rw [← rest, code, bits65_or_rest]

/-! ## The decode of a scratchpad (R142, R144 to R146) -/

section Decode

variable {raw : Raw9} {s : State} (record : Raw9 → Res → List Byte)

theorem decodeScratchpad_of_badCrc (h : crc8 (rawData raw) ≠ rawCrc raw) :
    decodeScratchpad record raw s = s.crcRelease.raise .checksumError := by
  simp [decodeScratchpad, computeCrc_eq, h]

theorem decodeScratchpad_of_badConfig (h : crc8 (rawData raw) = rawCrc raw)
    (hcfg : cfgDecode s.cfg (rawCfg raw) = none) :
    decodeScratchpad record raw s = s.crcRelease.raise .malformedConfigError := by
  simp [decodeScratchpad, computeCrc_eq, h, hcfg]

theorem decodeScratchpad_of_good {r : Res} (h : crc8 (rawData raw) = rawCrc raw)
    (hcfg : cfgDecode s.cfg (rawCfg raw) = some r) :
    decodeScratchpad record raw s = s.crcRelease.respond (record raw r) := by
  simp [decodeScratchpad, computeCrc_eq, h, hcfg]

theorem crc8_of_decodeScratchpad_ok (h : (decodeScratchpad record raw s).respStatus = some .ok) :
    crc8 (rawData raw) = rawCrc raw := by
  by_contra bad
  rw [decodeScratchpad_of_badCrc record bad] at h
  cases h

theorem decodeScratchpad_rx : (decodeScratchpad record raw s).rx = s.rx := by
  obtain ⟨-, h⟩ | ⟨-, -, h⟩ | ⟨r, -, -, h⟩ := decodeScratchpad_cases record raw s <;> rw [h] <;> rfl

end Decode

theorem raise_crcRelease_accept (i : Instr) (e : ErrorKind) (s : State) :
    (s.accept i).crcRelease.raise e = failedWith e (crcUsed s) := rfl

/-- Both requests on given bytes are the decode of them (R142, R144). -/
theorem exec_eq_decodeScratchpad_of_idle {i : Instr} {raw : Raw9} {s : State}
    (hi : i = .spDecode raw ∨ i = .sensorData raw) (h : s.st = .idle) :
    ∃ record, exec i s = .next (decodeScratchpad record raw (s.accept i)) := by
  obtain rfl | rfl := hi
  · exact ⟨scratchpadRecord, exec_of_idle_pure h rfl rfl⟩
  · exact ⟨sensorRecord, exec_of_idle_pure h rfl rfl⟩

/-! ## The scratchpad that a bus read decodes (R27, R208, R209) -/

theorem rx_of_readRx {s : State} {raw : Raw9} (h : readRx s = .ok raw) : s.rx = received raw := by
  unfold readRx at h
  split at h
  · cases h
    exact Vector.toList_inj.mp ‹_›
  · cases h

theorem received_injective : Function.Injective received := by
  rintro ⟨⟩ ⟨⟩ h
  simpa [received] using h

theorem received_isSome (raw : Raw9) (j : Fin 9) : ((received raw)[j]).isSome = true := by
  fin_cases j <;> rfl

theorem completionOf_read {i : Instr} {bit : Option (BitVec 1)} {u t : State} (hi : isScratchpadRead i)
    (h : completionOf i bit u = .next t) :
    ∃ record raw, u.rx = received raw ∧ t = decodeScratchpad record raw u := by
  have read {record : Raw9 → Res → List Byte} (h : completeRead record bit u = .next t) :
      ∃ record raw, u.rx = received raw ∧ t = decodeScratchpad record raw u := by
    unfold completeRead at h
    split at h
    · cases h
      exact ⟨record, _, rx_of_readRx ‹_›, rfl⟩
    · cases h
  obtain ⟨a, rfl | rfl⟩ := hi <;> exact read h

theorem onRow_accept (i : Instr) (s : State) : OnRow i (s.accept i) := by
  refine ⟨Nat.zero_le _, fun j => ?_⟩
  have noByte : bytesReceived i 0 = 0 := by cases i <;> rfl
  simp [rxEmpty, noByte]

/-- Before the end of its row a scratchpad read has not received its ninth byte. -/
theorem Ran.rx_ne_received {i : Instr} {p : SeqStep} {rest : List SeqStep} {bit : Option (BitVec 1)} {s u : State}
    (hi : isScratchpadRead i) (h : Ran (sequenceRow s.cfg i) none (s.accept i) (p :: rest) bit u) (raw : Raw9) :
    u.rx ≠ received raw := by
  intro hrx
  obtain ⟨hon, hrest⟩ := h.onRow rfl (onRow_accept i s)
  obtain ⟨⟨a, hrow⟩, hcount⟩ := sequenceRow_of_isScratchpadRead hi u.cfg
  have hlt : u.step < 12 := by
    by_contra hge
    rw [List.drop_eq_nil_of_le (by rw [hrow]; exact not_lt.mp hge)] at hrest
    cases hrest
  have last := hon.received 8
  rw [hrx, received_isSome, hcount] at last
  have : 8 < u.step - 3 := of_decide_eq_true last.symm
  omega

/-- A scratchpad read from IDLE decodes the nine bytes it received, or it has not received nine and does not answer
OK. -/
theorem exec_scratchpadRead_cases {i : Instr} {s t : State} (hi : isScratchpadRead i) (hst : s.st = .idle)
    (h : exec i s = .next t) :
    (∃ record raw u, u.rx = received raw ∧ t = decodeScratchpad record raw u) ∨
    ((∀ raw, t.rx ≠ received raw) ∧ t.respStatus ≠ some .ok) := by
  have completed {bit : Option (BitVec 1)} {u : State} (done : completionOf i bit u = .next t) :
      ∃ record raw u, u.rx = received raw ∧ t = decodeScratchpad record raw u := by
    obtain ⟨record, raw, hrx, ht⟩ := completionOf_read hi done
    exact ⟨record, raw, u, hrx, ht⟩
  obtain ⟨s', ⟨-, rfl⟩ | ⟨hbusy, -⟩, hrun⟩ | ⟨hbusy, -⟩ := exec_cases i s
  case inl.inr | inr => simp [hst] at hbusy
  obtain ⟨e, -, herr⟩ | ⟨-, hran⟩ := hrun
  · cases herr.symm.trans h
    refine .inr ⟨fun raw hrx => ?_, by simp⟩
    have first := received_isSome raw 0
    rw [← hrx] at first
    cases first
  rw [h] at hran
  generalize hout : (Host.Outcome.next t : Result) = out at hran
  cases hran with
  | blocked ran =>
    cases hout
    obtain ⟨keep, -⟩ := ran.effect
    exact .inr ⟨ran.rx_ne_received hi, by simp [keep.respStatus]⟩
  | failed ran fails =>
    cases hout
    obtain ⟨-, -, hrx, -⟩ := issue_failed fails
    exact .inr ⟨fun raw => by simpa [hrx] using ran.rx_ne_received hi raw, by simp⟩
  | polled => exact .inl (completed hout.symm)
  | finished => exact .inl (completed hout.symm)

end Sys2Proof.Machine

namespace Sys2Proof

open Machine Claims

/-- Settles O10: both sides say that the reserved bits are R8's value and that bits 6:5 are the resolution's code;
unchecked, the codes of the four resolutions are all there are. -/
theorem configByteDecodesOnlyIfEncoded : Obligations.ConfigByteDecodesOnlyIfEncoded := by
  refine fun c hwf => ⟨fun hstrict b r => ?_, fun hlenient b => ?_⟩
  · rw [cfgDecode_eq_some_of_strict hstrict, resOfCode_eq_some hwf, eq_encodeConfig hwf]
  · obtain ⟨r, hr⟩ := exists_resCode_eq hwf (b.extractLsb' 5 2)
    exact ⟨r, (cfgDecode_of_not_strict hlenient b).trans ((resOfCode_eq_some hwf).mpr hr), hr⟩

/-- Settles O15: a request that answers OK, or that ends with nine bytes received, has decoded its bytes, and the decode
tests their CRC first. -/
theorem invalidScratchpadIsNeverDecoded : Obligations.InvalidScratchpadIsNeverDecoded := by
  intro i s t hst h
  have given {raw : Raw9} (hi : i = .spDecode raw ∨ i = .sensorData raw) :
      ∃ record, decodeScratchpad record raw (s.accept i) = t := by
    obtain ⟨record, hexec⟩ := exec_eq_decodeScratchpad_of_idle hi hst
    exact ⟨record, by simpa [hexec] using h⟩
  refine ⟨fun hok => ⟨fun raw hi => ?_, fun hi => ?_⟩, fun raw hi bad => ?_⟩
  · obtain ⟨record, rfl⟩ := given hi
    exact crc8_of_decodeScratchpad_ok record hok
  · obtain ⟨record, raw, u, hrx, rfl⟩ | ⟨-, notOk⟩ := exec_scratchpadRead_cases hi hst h
    · exact ⟨raw, (decodeScratchpad_rx record).trans hrx, crc8_of_decodeScratchpad_ok record hok⟩
    · exact absurd hok notOk
  · suffices ∃ record u, decodeScratchpad record raw u = t by
      obtain ⟨record, u, rfl⟩ := this
      rw [decodeScratchpad_of_badCrc record bad]
      exact ⟨rfl, rfl⟩
    obtain hi | ⟨hi, hrx⟩ := or_assoc.mpr hi
    · obtain ⟨record, ht⟩ := given hi
      exact ⟨record, _, ht⟩
    · obtain ⟨record, raw', u, hrx', rfl⟩ | ⟨notReceived, -⟩ := exec_scratchpadRead_cases hi hst h
      · rw [decodeScratchpad_rx, hrx'] at hrx
        exact ⟨record, u, by rw [received_injective hrx]⟩
      · exact absurd hrx (notReceived raw)

/-- Settles O11: the request's completion answers the configuration byte. -/
theorem spEncodeConfigAnswersTheByte : Obligations.SpEncodeConfigAnswersTheByte :=
  fun _ _ hst => exec_of_idle_pure hst rfl rfl

/-- Settles O12: the decode of a good scratchpad answers its record, whose word is bytes 0 and 1. -/
theorem spDecodeAnswersTheRecord : Obligations.SpDecodeAnswersTheRecord := by
  intro raw r s hst hcrc hcfg
  rw [exec_of_idle_pure hst rfl rfl, completionOf, decodeScratchpad_of_good (s := s.accept _) _ hcrc hcfg,
    respond_crcRelease_accept]
  simp [scratchpadRecord, le16, rawTemp, rawTh, rawTl, rawCrc]

/-- Settles O13: the decode of a good scratchpad answers its record. -/
theorem sensorDataAnswersTheReading : Obligations.SensorDataAnswersTheReading := by
  intro raw r s hst hcrc hcfg
  rw [exec_of_idle_pure hst rfl rfl, completionOf, decodeScratchpad_of_good (s := s.accept _) _ hcrc hcfg,
    respond_crcRelease_accept]
  rfl

/-- Settles O14: the decode tests the CRC before the configuration byte. -/
theorem checksumErrorComesFirst : Obligations.ChecksumErrorComesFirst := by
  intro raw s i hi hst
  obtain ⟨record, hexec⟩ := exec_eq_decodeScratchpad_of_idle hi hst
  refine ⟨fun bad => ?_, fun good hcfg => ?_⟩
  · rw [hexec, decodeScratchpad_of_badCrc record bad, raise_crcRelease_accept]
  · rw [hexec, decodeScratchpad_of_badConfig (s := s.accept i) record good hcfg, raise_crcRelease_accept]

end Sys2Proof
end

section
/-! PROOFS. The temperature converter: a resolution's mask clears the bits below its step, which is the floor of the
two's-complement value at that step; the temperature is that value in sixteenths of a degree. -/

namespace Sys2Proof.Machine

/-! ## Clearing the low bits of a word -/

theorem and_allOnes_shiftLeft_msb {w k : Nat} (hk : k < w) (x : BitVec w) :
    (x &&& BitVec.allOnes w <<< k).msb = x.msb := by
  simp [BitVec.msb_shiftLeft, hk]

theorem and_allOnes_shiftLeft_toNat {w : Nat} (k : Nat) (x : BitVec w) :
    (x &&& BitVec.allOnes w <<< k).toNat = x.toNat / 2 ^ k * 2 ^ k := by
  have noOverflow : x.toNat / 2 ^ k * 2 ^ k < 2 ^ w := (Nat.div_mul_le_self ..).trans_lt x.isLt
  rw [← BitVec.shiftLeft_ushiftRight]
  simp [Nat.shiftRight_eq_div_pow, Nat.shiftLeft_eq, Nat.mod_eq_of_lt noOverflow]

/-- Clearing the low bits is the floor of the two's-complement value: the sign weighs a multiple of their range. -/
theorem and_allOnes_shiftLeft_toInt {w k : Nat} (hk : k < w) (x : BitVec w) :
    (x &&& BitVec.allOnes w <<< k).toInt = x.toInt / 2 ^ k * 2 ^ k := by
  have sign : (2 : Int) ^ w = 2 ^ (w - k) * 2 ^ k := by rw [← pow_add, Nat.sub_add_cancel hk.le]
  rw [BitVec.toInt_eq_msb_cond, BitVec.toInt_eq_msb_cond, and_allOnes_shiftLeft_msb hk, and_allOnes_shiftLeft_toNat]
  split
  · push_cast
    rw [sign, Int.sub_mul_ediv_right _ _ (by positivity), sub_mul]
  · push_cast
    rfl

/-! ## The masks of the resolutions (R160) -/

theorem droppedBits_lt (r : Res) : 12 - resBits r < 16 := by cases r <;> decide

theorem maskTemp_msb (t : Word16) (r : Res) : (maskTemp t r).msb = t.msb :=
  and_allOnes_shiftLeft_msb (droppedBits_lt r) t

/-- R163's formula. -/
theorem maskTemp_toInt (t : Word16) (r : Res) :
    (maskTemp t r).toInt = t.toInt / 2 ^ (12 - resBits r) * 2 ^ (12 - resBits r) :=
  and_allOnes_shiftLeft_toInt (droppedBits_lt r) t

/-! ## The temperature of a word (R162) -/

theorem celsius_eq (m : Word16) : celsius m = m.toInt / 16 := Rat.mkRat_eq_div ..

theorem celsius_bounds (m : Word16) : -2048 ≤ celsius m ∧ celsius m ≤ 2047 + 15 / 16 := by
  have low : (-32768 : Rat) ≤ m.toInt := mod_cast m.le_toInt
  have high : (m.toInt : Rat) ≤ 32767 := mod_cast m.toInt_le
  rw [celsius_eq]
  constructor <;> linarith

/-- The bits a mask clears and the fraction bits it keeps are the four fraction bits. -/
theorem two_pow_dropped_mul_two_pow_kept (r : Res) : (2 : Rat) ^ (12 - resBits r) * 2 ^ (resBits r - 8) = 16 := by
  cases r <;> norm_num [resBits]

/-- Masking is the floor of the temperature in the resolution's steps of `2^-(bits - 8)` °C. -/
theorem celsius_maskTemp (t : Word16) (r : Res) :
    celsius (maskTemp t r) = ⌊celsius t * 2 ^ (resBits r - 8)⌋ / 2 ^ (resBits r - 8) := by
  have sixteenths := two_pow_dropped_mul_two_pow_kept r
  have inSteps : celsius t * 2 ^ (resBits r - 8) = t.toInt / (2 ^ (12 - resBits r) : Nat) := by
    rw [celsius_eq, ← sixteenths]
    push_cast
    field_simp
  rw [inSteps, Rat.floor_intCast_div_natCast, celsius_eq, maskTemp_toInt, ← sixteenths]
  push_cast
  field_simp

end Sys2Proof.Machine

namespace Sys2Proof

open Machine

/-- Settles O18: R163's formula, where `Int.fdiv` is `/` for a positive divisor; the resolution that drops `k` bits is
the one of `12 - k` bits. -/
theorem maskingIsFloor : Obligations.MaskingIsFloor := by
  refine ⟨fun t r => ⟨rfl, ?_, maskTemp_msb t r⟩, fun k hk => ?_⟩
  · rw [Int.fdiv_eq_ediv_of_nonneg _ (by positivity), maskTemp_toInt]
  · interval_cases k
    · exact ⟨.r12, rfl⟩
    · exact ⟨.r11, rfl⟩
    · exact ⟨.r10, rfl⟩
    · exact ⟨.r9, rfl⟩

/-- Settles O19: the floor in steps is at most the temperature in steps, and less than one below it. -/
theorem maskingRoundsDown : Obligations.MaskingRoundsDown := by
  refine ⟨fun t r => ⟨?_, ?_, _, celsius_maskTemp t r⟩, by decide +kernel⟩
  · rw [celsius_maskTemp, div_le_iff₀ (by positivity)]
    exact Int.floor_le _
  · rw [celsius_maskTemp, ← add_div, lt_div_iff₀ (by positivity)]
    exact Int.lt_floor_add_one _

/-- Settles O20: a masked word is a word, so its value is in the range of all words, and it is a floor in steps. -/
theorem maskedTemperatureRange : Obligations.MaskedTemperatureRange := by
  refine ⟨fun t r => ?_, by decide +kernel⟩
  obtain ⟨low, high⟩ := celsius_bounds (maskTemp t r)
  exact ⟨celsius_eq _, low, high, _, celsius_maskTemp t r⟩

/-- Settles O16: the request's completion answers the two bytes of the masked word. -/
theorem tempConvertAnswersTheMaskedWord : Obligations.TempConvertAnswersTheMaskedWord :=
  fun _ _ _ hst => exec_of_idle_pure hst rfl rfl

/-- Settles O17: the shifts of `0xFFFF` by 0 to 3 places. -/
theorem maskTable : Obligations.MaskTable := ⟨rfl, rfl, rfl, rfl⟩

end Sys2Proof
end

section
/-! PROOFS. The resolution model: the register bits of a resolution are its code in a byte, so their decode and their
encode are inverse to each other on the bytes 0 to 3. -/

namespace Sys2Proof.Machine

open Sys2Proof.Claims

/-! ## The register bits (R182 to R184) -/

theorem registerBits_toNat (c : Config) (r : Res) : (registerBits c r).toNat = (resCode c r).toNat :=
  BitVec.toNat_setWidth_of_le (by decide)

/-- A byte up to 3 is its bits 1:0. -/
theorem setWidth_extractLsb'_of_le_three {b : Byte} (h : b.toNat ≤ 3) : (b.extractLsb' 0 2).setWidth 8 = b := by
  apply BitVec.eq_of_toNat_eq
  rw [BitVec.toNat_setWidth_of_le (by decide), BitVec.extractLsb'_toNat, Nat.shiftRight_zero]
  exact Nat.mod_eq_of_lt (Nat.lt_succ_of_le h)

theorem registerBits_eq_iff {c : Config} {r : Res} {b : Byte} (h : b.toNat ≤ 3) :
    registerBits c r = b ↔ resCode c r = b.extractLsb' 0 2 := by
  constructor
  · rintro rfl
    rw [registerBits, BitVec.extractLsb'_setWidth_of_le (by decide), BitVec.extractLsb'_eq_self]
  · intro hcode
    rw [registerBits, hcode, setWidth_extractLsb'_of_le_three h]

theorem fromRegisterBits_of_three_lt (c : Config) {b : Byte} (h : 3 < b.toNat) : fromRegisterBits c b = none :=
  if_pos h

theorem fromRegisterBits_of_le_three (c : Config) {b : Byte} (h : b.toNat ≤ 3) :
    fromRegisterBits c b = resOfCode c (b.extractLsb' 0 2) :=
  if_neg (Nat.not_lt.mpr h)

theorem fromRegisterBits_eq_some {c : Config} (hwf : c.wf) {b : Byte} (h : b.toNat ≤ 3) {r : Res} :
    fromRegisterBits c b = some r ↔ registerBits c r = b := by
  rw [fromRegisterBits_of_le_three c h, resOfCode_eq_some hwf, registerBits_eq_iff h]

theorem registerBits_toNat_le_three (c : Config) (r : Res) : (registerBits c r).toNat ≤ 3 := by
  rw [registerBits_toNat]
  exact Nat.le_of_lt_succ (resCode c r).isLt

theorem exists_registerBits_eq {c : Config} (hwf : c.wf) {b : Byte} (h : b.toNat ≤ 3) : ∃ r, registerBits c r = b := by
  obtain ⟨r, hcode⟩ := exists_resCode_eq hwf (b.extractLsb' 0 2)
  exact ⟨r, (registerBits_eq_iff h).mpr hcode⟩

/-! ## The requests from IDLE (R181, R183) -/

theorem exec_convTime_of_idle (r : Res) {s : State} (hst : s.st = .idle) :
    exec (.convTime r) s = .next (finished (le32 (conversionTime r)) s) :=
  exec_of_idle_pure hst rfl rfl

theorem exec_fromRegBits_of_some {b : Byte} {r : Res} {s : State} (hst : s.st = .idle)
    (h : fromRegisterBits s.cfg b = some r) : exec (.fromRegBits b) s = .next (finished [resByte r] s) := by
  rw [exec_of_idle_pure hst rfl rfl, completionOf, accept_cfg, h]
  rfl

theorem exec_fromRegBits_of_none {b : Byte} {s : State} (hst : s.st = .idle) (h : fromRegisterBits s.cfg b = none) :
    exec (.fromRegBits b) s = .next (failedWith .malformedConfigError s) := by
  rw [exec_of_idle_pure hst rfl rfl, completionOf, accept_cfg, h]
  rfl

end Sys2Proof.Machine

namespace Sys2Proof

open Machine

/-- Settles O25: on the bytes 0 to 3 the decode answers exactly the resolution whose register bits the byte is, and each
of these bytes is the register bits of one. -/
theorem registerBitsRoundTrip : Obligations.RegisterBitsRoundTrip := by
  refine fun c hwf => ⟨fun r => ?_, fun b hb => ?_⟩
  · exact (fromRegisterBits_eq_some hwf (registerBits_toNat_le_three c r)).mpr rfl
  · obtain ⟨r, hbits⟩ := exists_registerBits_eq hwf hb
    exact ⟨r, (fromRegisterBits_eq_some hwf hb).mpr hbits, hbits⟩

/-- Settles O24: up to 3 the round trip gives the resolution, above 3 there is none. -/
theorem fromRegBitsAnswersTheResolution : Obligations.FromRegBitsAnswersTheResolution := by
  refine fun b s hst hwf => ⟨fun hb => ?_, fun hb => ?_⟩
  · obtain ⟨-, back⟩ := registerBitsRoundTrip s.cfg hwf
    obtain ⟨r, hdecode, rfl⟩ := back b hb
    exact ⟨r, (registerBits_toNat s.cfg r).symm, exec_fromRegBits_of_some hst hdecode⟩
  · exact exec_fromRegBits_of_none hst (fromRegisterBits_of_three_lt s.cfg hb)

/-- Settles O23: the request's completion answers the register bits. -/
theorem regBitsAnswersTheCode : Obligations.RegBitsAnswersTheCode :=
  fun _ _ hst => exec_of_idle_pure hst rfl rfl

/-- Settles O21: the request's completion answers the four bytes of the conversion time. -/
theorem convTimeAnswersTheTable : Obligations.ConvTimeAnswersTheTable :=
  fun _ hst => ⟨exec_convTime_of_idle .r9 hst, exec_convTime_of_idle .r10 hst, exec_convTime_of_idle .r11 hst,
    exec_convTime_of_idle .r12 hst⟩

/-- Settles O22: the closed form resolution by resolution, and arithmetic on the table's four entries. -/
theorem conversionTimeClosedForm : Obligations.ConversionTimeClosedForm := by
  refine ⟨fun r => ?_, rfl, rfl, rfl, rfl, by decide, by decide⟩
  cases r <;> rfl

end Sys2Proof
end

section
/-! PROOFS. The bus phase event by event: a step is answered or fails with an event whose answer is ready; along its row
a request stands where its events have brought it, and it stands nowhere else (R26, R27, R64, R204, R217). -/

namespace Sys2Proof.Machine

open Sys2Proof.Claims

/-! ## The timing port across events (R23) -/

theorem primUs_of_noDelay {e : Event} (h : isDelay e = false) : primUs (eventPrim e) = 0 := by
  cases e with
  | delayMs | delayUs => cases h
  | _ => rfl

/-- Only a delay uses the timing port. -/
theorem timerPassed_of_noDelay {es : List Event} (h : ∀ e ∈ es, isDelay e = false) {late : List Nat} {a b : Timer} :
    TimerPassed es late a b ↔ late = [] ∧ b = a := by
  have hcount : es.countP isDelay = 0 := List.countP_eq_zero.mpr fun e he => by simp [h e he]
  have hsum : (es.map fun e => primUs (eventPrim e)).sum = 0 :=
    List.sum_eq_zero fun n hn => by
      obtain ⟨e, he, rfl⟩ := List.mem_map.mp hn
      exact primUs_of_noDelay (h e he)
  obtain ⟨ends, waited⟩ := a
  obtain ⟨ends', waited'⟩ := b
  rw [TimerPassed, hcount, hsum, List.length_eq_zero_iff]
  constructor
  · rintro ⟨rfl, hends, hwaited⟩
    simp_all
  · rintro ⟨rfl, h⟩
    simp_all

theorem timerPassed_refl {es : List Event} (h : ∀ e ∈ es, isDelay e = false) (tm : Timer) : TimerPassed es [] tm tm :=
  (timerPassed_of_noDelay h).mpr ⟨rfl, rfl⟩

theorem timerPassed_nil {late : List Nat} {a b : Timer} : TimerPassed [] late a b ↔ late = [] ∧ b = a :=
  timerPassed_of_noDelay (List.forall_mem_nil _)

/-- The timing port across two runs of events is its course across the first and then across the second. -/
theorem timerPassed_append {es fs : List Event} {late : List Nat} {a c : Timer} :
    TimerPassed (es ++ fs) late a c ↔
      ∃ l l' b, late = l ++ l' ∧ TimerPassed es l a b ∧ TimerPassed fs l' b c := by
  constructor
  · rintro ⟨hlate, hends, hwaited⟩
    obtain ⟨l, l', rfl, hl, hl'⟩ : ∃ l l', late = l ++ l' ∧ l.length = es.countP isDelay ∧
        l'.length = fs.countP isDelay := by
      rw [List.countP_append] at hlate
      exact ⟨late.take (es.countP isDelay), late.drop (es.countP isDelay), (List.take_append_drop _ _).symm,
        by simp [hlate], by simp [hlate]⟩
    refine ⟨l, l', ⟨l' ++ c.ends, a.waitedUs + (es.map fun e => primUs (eventPrim e)).sum + l.sum⟩, rfl,
      ⟨hl, by simp [hends], rfl⟩, hl', rfl, ?_⟩
    simp only [List.map_append, List.sum_append] at hwaited ⊢
    omega
  · rintro ⟨l, l', b, rfl, ⟨hl, hends, hwaited⟩, hl', hends', hwaited'⟩
    refine ⟨by simp [hl, hl'], by simp [hends, hends'], ?_⟩
    simp only [List.map_append, List.sum_append]
    omega

/-! ## The events of one step (R11, R22, R71, R217) -/

/-- The bit an event brought, if it is an answered read-bit. -/
def bitRead (e : Event) : Option (BitVec 1) :=
  match e with
  | .readBit (.ok b) => some b
  | _ => none

/-- `e` is an event with which the step `p` is answered and the sequence can go on (R217). -/
inductive Answers : SeqStep → Event → Prop where
  | reset : Answers .reset (.reset (.ok .present))
  | select (a : Addr) : Answers (.select a) (.select a (.ok ()))
  | skip : Answers .skip (.skip (.ok ()))
  | write (b : Byte) : Answers (.write b) (.write b (.ok ()))
  | readInto (j : Fin 9) (b : Byte) : Answers (.readInto j) (.read (.ok b))
  | readBit (b : BitVec 1) : Answers .readBit (.readBit (.ok b))
  | pollBit (b : BitVec 1) : Answers .pollBit (.readBit (.ok b))
  | delayMs (n : Word16) : Answers (.delayMs n) (.delayMs n)

/-- `e` is an event with which the step `p` fails (R217). -/
inductive Fails : SeqStep → Event → Prop where
  | absent : Fails .reset (.reset (.ok .absent))
  | reset : Fails .reset (.reset .err)
  | select (a : Addr) : Fails (.select a) (.select a .err)
  | skip : Fails .skip (.skip .err)
  | write (b : Byte) : Fails (.write b) (.write b .err)
  | readInto (j : Fin 9) : Fails (.readInto j) (.read .err)
  | readBit : Fails .readBit (.readBit .err)
  | pollBit : Fails .pollBit (.readBit .err)

theorem Answers.prim_ok {p : SeqStep} {e : Event} (h : Answers p e) : eventPrim e = stepPrim p ∧ eventOk e = true := by
  cases h <;> exact ⟨rfl, rfl⟩

theorem Fails.prim_not_ok {p : SeqStep} {e : Event} (h : Fails p e) :
    eventPrim e = stepPrim p ∧ eventOk e = false := by
  cases h <;> exact ⟨rfl, rfl⟩

theorem Fails.not_delay_not_read {p : SeqStep} {e : Event} (h : Fails p e) :
    isDelay e = false ∧ byteRead e = none := by
  cases h <;> exact ⟨rfl, rfl⟩

/-- An event of a step's primitive either answers the step or fails it. -/
theorem answers_or_fails {p : SeqStep} {e : Event} (h : eventPrim e = stepPrim p) : Answers p e ∨ Fails p e := by
  cases p <;> cases e <;> cases h
  case reset.reset.refl x =>
    obtain ⟨_ | _⟩ | _ := x
    exacts [.inl .reset, .inr .absent, .inr .reset]
  case delayMs.delayMs.refl => exact .inl (.delayMs _)
  all_goals
    rename_i x
    cases x
    · exact .inl (by constructor)
    · exact .inr (by constructor)

theorem endsRow_bitRead {p : SeqStep} {e : Event} :
    endsRow p (bitRead e) = true ↔ p = .pollBit ∧ e = .readBit (.ok 1) := by
  cases e with
  | readBit x => cases x <;> simp [endsRow, bitRead]
  | _ => simp [endsRow, bitRead]

/-! ## Issuing a step, with the answers that are ready -/

/-- The state after the step `p` is answered with the event `e`: `b` is what is left of the transport's answers and `tm`
the timing port. -/
def State.took (p : SeqStep) (e : Event) (b : Transport) (tm : Timer) (s : State) : State :=
  { s with step := s.step + 1, rx := rxAfter p e s.rx, bus := b, timer := tm, trace := s.trace ++ [e] }

/-- A step is answered where an answer of it, or its delay's end, is ready (R11, R23, R71). -/
theorem issue_of_answers {p : SeqStep} {e : Event} {late : List Nat} {b : Transport} {tm : Timer} {s : State}
    (h : Answers p e) (hbus : s.bus = putBack e b) (htimer : TimerPassed [e] late s.timer tm) :
    issue p s = .answered (bitRead e) (s.took p e b tm) := by
  cases h with
  | delayMs n =>
    obtain ⟨hlate, hends, hwaited⟩ := htimer
    obtain ⟨x, rfl⟩ := List.length_eq_one_iff.mp hlate
    have htm : tm = ⟨tm.ends, s.timer.waitedUs + (1000 * n.toNat + x)⟩ := by
      rw [← Nat.add_assoc]
      exact congrArg (Timer.mk tm.ends) hwaited
    simp only [issue, issueDelay, hends, List.singleton_append]
    rw [htm, ← show s.bus = b from hbus]
    rfl
  | _ =>
    obtain ⟨-, rfl⟩ := (timerPassed_of_noDelay (by simp [isDelay])).mp htimer
    cases s
    cases hbus
    rfl

/-- Everything an answered step can have done (R11, R23, R71). -/
theorem answers_of_issue {p : SeqStep} {s t : State} {bit : Option (BitVec 1)} (h : issue p s = .answered bit t) :
    ∃ e late, Answers p e ∧ bit = bitRead e ∧ s.bus = putBack e t.bus ∧ TimerPassed [e] late s.timer t.timer ∧
      t = s.took p e t.bus t.timer := by
  have noDelay {e : Event} (he : isDelay e = false) : TimerPassed [e] [] s.timer s.timer :=
    timerPassed_refl (by simpa using he) _
  cases p with
  | delayMs n =>
    simp only [issue, issueDelay] at h
    split at h <;> cases h
    exact ⟨_, [_], .delayMs n, rfl, rfl, ⟨rfl, ‹_›, by simp [eventPrim, primUs, Nat.add_assoc]⟩, rfl⟩
  | readInto j =>
    simp only [issue, issueRead] at h
    split at h <;> cases h
    rename_i b _ hq
    exact ⟨_, [], .readInto j b, rfl, by simp [putBack, ← hq], noDelay rfl, rfl⟩
  | _ =>
    simp only [issue, issueReset, issueAck, issueReadBit] at h
    split at h <;> cases h
    rename_i hq
    exact ⟨_, [], by constructor, rfl, by simp [putBack, ← hq], noDelay rfl, rfl⟩

/-- A step fails exactly where a failing answer of it is ready (R203, R217). -/
theorem issue_eq_failed {p : SeqStep} {s t : State} :
    issue p s = .failed t ↔
      ∃ e b, Fails p e ∧ s.bus = putBack e b ∧ t = { s with bus := b, trace := s.trace ++ [e] } := by
  constructor
  · intro h
    cases p <;> simp only [issue, issueReset, issueAck, issueRead, issueReadBit, issueDelay] at h <;> split at h <;>
      cases h
    all_goals
      rename_i hq
      exact ⟨_, _, by constructor, by simp [putBack, ← hq], rfl⟩
  · rintro ⟨e, b, fails, hbus, rfl⟩
    cases s
    cases hbus
    cases fails <;> rfl

/-! ## The events along a row (R64, R200, R217) -/

/-- The step `p` is answered with the event `e`, and its row goes on: it is no poll that is done (R213). -/
def GoesOn (p : SeqStep) (e : Event) : Prop := Answers p e ∧ endsRow p (bitRead e) = false

/-- `es` are events of a request's row, from its start, after which it goes on with the steps `rest`. -/
inductive AlongRow (c : Config) (i : Instr) : List Event → List SeqStep → Prop where
  | start : AlongRow c i [] (sequenceRow c i)
  | next {es : List Event} {e : Event} {p : SeqStep} {rest : List SeqStep} (along : AlongRow c i es (p :: rest))
      (goesOn : GoesOn p e) : AlongRow c i (es ++ [e]) rest

/-- A read-bit and a delay are the last steps of their rows (R212 to R214). -/
theorem lastStep_of_mem_dropLast (c : Config) (i : Instr) :
    ∀ p ∈ (sequenceRow c i).dropLast, p ≠ .readBit ∧ ∀ n, p ≠ .delayMs n := by
  cases i
  case recallEeprom a =>
    cases hpoll : c.recallPoll with
    | true =>
      intro p hp
      have hmem := List.dropLast_subset _ hp
      simp only [sequenceRow, rowRecallEeprom, openAddressed, hpoll, if_true, List.cons_append, List.nil_append,
        List.mem_cons, List.mem_replicate] at hmem
      obtain rfl | rfl | rfl | ⟨-, rfl⟩ := hmem <;> exact ⟨nofun, nofun⟩
    | false => simp [sequenceRow, rowRecallEeprom, openAddressed, hpoll]
  all_goals
    simp [sequenceRow, rowStartConvAddr, rowStartConvAll, rowReadScratchpad, rowWriteScratchpad, rowSetConfig,
      rowCopyScratchpad, rowReadPower, openAddressed, openBroadcast]

section AlongRow

variable {c : Config} {i : Instr} {es : List Event} {e : Event} {p : SeqStep} {rest : List SeqStep}

theorem AlongRow.prims (h : AlongRow c i es rest) :
    (sequenceRow c i).map stepPrim = es.map eventPrim ++ rest.map stepPrim := by
  induction h with
  | start => rfl
  | next _ goesOn ih =>
    obtain ⟨hprim, -⟩ := goesOn.1.prim_ok
    simp [ih, hprim]

theorem AlongRow.ok (h : AlongRow c i es rest) : ∀ x ∈ es, eventOk x = true := by
  induction h with
  | start => simp
  | next _ goesOn ih =>
    obtain ⟨-, hok⟩ := goesOn.1.prim_ok
    simpa [or_imp, forall_and, hok] using ih

theorem AlongRow.rest_eq (h : AlongRow c i es rest) : rest = (sequenceRow c i).drop es.length := by
  induction h with
  | start => rfl
  | next _ _ ih => rw [List.length_append, List.length_singleton, ← List.tail_drop, ← ih, List.tail_cons]

theorem AlongRow.step_eq (h : AlongRow c i es (p :: rest)) : (sequenceRow c i)[es.length]? = some p := by
  rw [← List.head?_drop, ← h.rest_eq, List.head?_cons]

theorem AlongRow.step_mem (h : AlongRow c i es (p :: rest)) : p ∈ sequenceRow c i := List.mem_of_getElem? h.step_eq

/-- Before a row's last step there was no delay, and no bit read was a 1. -/
theorem AlongRow.beforeLast (h : AlongRow c i es rest) (hrest : rest ≠ []) :
    ∀ x ∈ es, isDelay x = false ∧ x ≠ .readBit (.ok 1) := by
  induction h with
  | start => simp
  | @next es e p rest along goesOn ih =>
    have hp : p ∈ (sequenceRow c i).dropLast := by
      rw [← List.take_append_drop es.length (sequenceRow c i), ← along.rest_eq,
        List.dropLast_append_of_ne_nil (List.cons_ne_nil _ _), List.dropLast_cons_of_ne_nil hrest]
      simp
    obtain ⟨notBit, notDelay⟩ := lastStep_of_mem_dropLast c i p hp
    obtain ⟨answers, notDone⟩ := goesOn
    intro x hx
    obtain hx | rfl := by simpa using hx
    · exact ih (List.cons_ne_nil _ _) x hx
    · cases answers with
      | readBit => exact absurd rfl notBit
      | delayMs => exact absurd rfl (notDelay _)
      | pollBit b => exact ⟨rfl, fun h => by cases h; cases notDone⟩
      | _ => exact ⟨rfl, nofun⟩

theorem AlongRow.notDone (h : AlongRow c i es (p :: rest)) : ∀ x ∈ es, eventOk x = true ∧ x ≠ .readBit (.ok 1) :=
  fun x hx => ⟨h.ok x hx, (h.beforeLast (List.cons_ne_nil _ _) x hx).2⟩

theorem AlongRow.noDelay (h : AlongRow c i es (p :: rest)) : ∀ x ∈ es, isDelay x = false :=
  fun x hx => (h.beforeLast (List.cons_ne_nil _ _) x hx).1

/-- A row goes by its steps alone, not by the request they are of. -/
theorem AlongRow.of_row_eq {i' : Instr} (h : AlongRow c i es rest) (hrow : sequenceRow c i = sequenceRow c i') :
    AlongRow c i' es rest := by
  induction h with
  | start => exact hrow ▸ .start
  | next _ goesOn ih => exact .next ih goesOn

/-- The last of the events whose primitives a row starts with is of the step that stands in its place. -/
theorem exists_step_of_prims {row : List SeqStep} (h : (es ++ [e]).map eventPrim <+: row.map stepPrim) :
    ∃ p, row.drop es.length = p :: row.drop (es ++ [e]).length ∧ eventPrim e = stepPrim p := by
  have hlt : es.length < row.length := by simpa [Nat.add_one_le_iff] using h.length_le
  refine ⟨row[es.length], by simp, ?_⟩
  have hprim := List.prefix_iff_getElem?.mp h es.length (by simp)
  simpa [hlt] using hprim.symm

/-- Succeeding events of the primitives that a row starts with are along the row, if none is a poll that is done. -/
theorem alongRow_of_prims (hprims : es.map eventPrim <+: (sequenceRow c i).map stepPrim)
    (hok : ∀ x ∈ es, eventOk x = true ∧ (x = .readBit (.ok 1) → .pollBit ∉ sequenceRow c i)) :
    AlongRow c i es ((sequenceRow c i).drop es.length) := by
  induction es using List.reverseRecOn with
  | nil => exact .start
  | append_singleton es e ih =>
    have along := ih (((List.prefix_append es [e]).map eventPrim).trans hprims) fun x hx => hok x (by simp [hx])
    obtain ⟨p, hdrop, hprim⟩ := exists_step_of_prims hprims
    obtain ⟨ok, notDone⟩ := hok e (by simp)
    rw [hdrop] at along
    refine .next along ⟨?_, ?_⟩
    · obtain answers | fails := answers_or_fails hprim
      · exact answers
      · obtain ⟨-, bad⟩ := fails.prim_not_ok
        exact absurd ok (by simp [bad])
    · rw [Bool.eq_false_iff, ne_eq, endsRow_bitRead]
      rintro ⟨rfl, he⟩
      exact notDone he along.step_mem

/-! ## The bytes received along a row (R27, R208) -/

theorem byteRead_eq_none (h : Answers p e) (hp : ∀ j, p ≠ .readInto j) : byteRead e = none := by
  cases h with
  | readInto j => exact absurd rfl (hp j)
  | _ => rfl

theorem AlongRow.length_bytes (h : AlongRow c i es rest) :
    (es.filterMap byteRead).length = bytesReceived i es.length := by
  induction h with
  | start => cases i <;> rfl
  | @next es e p rest along goesOn ih =>
    rw [List.filterMap_append, List.length_append, ih, List.length_append, List.length_singleton]
    obtain ⟨j, rfl, hbefore, hafter⟩ | ⟨hp, hsame⟩ := bytesReceived_succ along.step_eq
    · obtain ⟨⟨⟩, -⟩ := goesOn
      rw [hbefore, hafter]
      rfl
    · simp [byteRead_eq_none goesOn.1 hp, hsame]

theorem receivedIn_concat_read {j : Fin 9} (h : (es.filterMap byteRead).length = j) (b : Byte) :
    receivedIn (es ++ [.read (.ok b)]) = (receivedIn es).set j (some b) := by
  have hbytes : (es ++ [Event.read (.ok b)]).filterMap byteRead = es.filterMap byteRead ++ [b] := by simp [byteRead]
  ext k hk : 1
  simp only [receivedIn, hbytes, Vector.getElem_ofFn, Vector.getElem_set, List.getElem?_append, h]
  obtain hlt | rfl | hgt := lt_trichotomy k j.val
  · simp [hlt, hlt.ne']
  · simp
  · simp [hgt.ne, hgt.not_gt, h, Nat.sub_ne_zero_of_lt hgt]

/-- A read puts its byte where its place among the row's reads is. -/
theorem AlongRow.rxAfter_eq (h : AlongRow c i es (p :: rest)) (answers : Answers p e) :
    rxAfter p e (receivedIn es) = receivedIn (es ++ [e]) := by
  obtain ⟨j, rfl, hbefore, -⟩ | ⟨hp, -⟩ := bytesReceived_succ h.step_eq
  · cases answers
    exact (receivedIn_concat_read (h.length_bytes.trans hbefore) _).symm
  · rw [rxAfter_of_ne hp]
    simp [receivedIn, byteRead_eq_none answers hp]

theorem receivedIn_eq_rxEmpty (h : es.filterMap byteRead = []) : receivedIn es = rxEmpty := by
  ext j hj : 1
  simp [receivedIn, h, rxEmpty]

end AlongRow

/-! ## The state along a row (R26, R27, R64, R204) -/

/-- The bit of the last event, if that is an answered read-bit. -/
def lastBit (es : List Event) : Option (BitVec 1) := es.getLast?.bind bitRead

@[simp] theorem lastBit_concat (es : List Event) (e : Event) : lastBit (es ++ [e]) = bitRead e := by simp [lastBit]

theorem lastBit_ne_one {es : List Event} (h : .readBit (.ok 1) ∉ es) : lastBit es ≠ some 1 := by
  intro hbit
  obtain ⟨e, he, hone⟩ := Option.bind_eq_some_iff.mp hbit
  have done : endsRow .pollBit (bitRead e) = true := by rw [hone]; rfl
  obtain ⟨-, rfl⟩ := endsRow_bitRead.mp done
  exact h (List.mem_of_getLast? he)

/-- Where a request accepted in `s` stands after the events `es`: `b` is what is left of the transport's answers and `tm`
the timing port. -/
def State.afterEvents (i : Instr) (es : List Event) (b : Transport) (tm : Timer) (s : State) : State :=
  { s.accept i with step := es.length, rx := receivedIn es, bus := b, timer := tm, trace := s.trace ++ es }

/-- A request accepted in `s` stands in `u` after the events `es`, with the steps `rest` to go. -/
structure Along (i : Instr) (s : State) (es : List Event) (late : List Nat) (rest : List SeqStep) (u : State) : Prop where
  row   : AlongRow s.cfg i es rest
  bus   : s.bus = es.foldr putBack u.bus
  timer : TimerPassed es late s.timer u.timer
  state : u = s.afterEvents i es u.bus u.timer

section Along

variable {i : Instr} {s u : State} {es : List Event} {e : Event} {late : List Nat} {p : SeqStep} {rest : List SeqStep}
  {b : Transport} {tm : Timer}

theorem afterEvents_nil (i : Instr) (s : State) : s.afterEvents i [] s.bus s.timer = s.accept i := by
  simp [State.afterEvents, receivedIn_eq_rxEmpty (es := []) rfl, State.accept]

theorem respond_afterEvents (hreads : es.filterMap byteRead = []) (v : List Byte) :
    (s.afterEvents i es b tm).respond v = { finished v s with bus := b, timer := tm, trace := s.trace ++ es } := by
  simp [State.afterEvents, State.respond, finished, receivedIn_eq_rxEmpty hreads, State.accept]

theorem raise_afterEvents (hreads : es.filterMap byteRead = []) (k : ErrorKind) :
    (s.afterEvents i es b tm).raise k = { failedWith k s with bus := b, timer := tm, trace := s.trace ++ es } := by
  simp [State.afterEvents, State.raise, failedWith, receivedIn_eq_rxEmpty hreads, State.accept]

/-- One event more. -/
theorem AlongRow.took_afterEvents (h : AlongRow s.cfg i es (p :: rest)) (answers : Answers p e) {b' : Transport}
    {tm' : Timer} : (s.afterEvents i es b tm).took p e b' tm' = s.afterEvents i (es ++ [e]) b' tm' := by
  simp [State.took, State.afterEvents, ← h.rxAfter_eq answers]

theorem Ran.concat {row : List SeqStep} {last bit bit' : Option (BitVec 1)} {t t' : State}
    (h : Ran row last s (p :: rest) bit t) (answered : issue p t = .answered bit' t')
    (goesOn : endsRow p bit' = false) : Ran row last s rest bit' t' := by
  generalize hrow : p :: rest = row' at h
  induction h with
  | here => subst hrow; exact .step answered goesOn (.here _ _ _)
  | step answered' goesOn' _ ih => exact .step answered' goesOn' (ih answered hrow)

/-- Where the answers of the events `es` are ready, and the ends of their delays, the request comes to stand after
them. -/
theorem AlongRow.ran (h : AlongRow s.cfg i es rest) (hbus : s.bus = es.foldr putBack b)
    (htimer : TimerPassed es late s.timer tm) :
    Ran (sequenceRow s.cfg i) none (s.accept i) rest (lastBit es) (s.afterEvents i es b tm) := by
  induction h generalizing b late tm with
  | start =>
    obtain ⟨-, rfl⟩ := timerPassed_nil.mp htimer
    obtain rfl : s.bus = b := hbus
    rw [afterEvents_nil]
    exact .here _ _ _
  | @next es e p rest along goesOn ih =>
    obtain ⟨answers, notDone⟩ := goesOn
    obtain ⟨l, l', tm', rfl, hbefore, hlast⟩ := timerPassed_append.mp htimer
    rw [lastBit_concat, ← along.took_afterEvents answers]
    rw [List.foldr_append] at hbus
    exact (ih hbus hbefore).concat (issue_of_answers answers rfl hlast) notDone

theorem Along.answered (h : Along i s es late (p :: rest) u) {bit : Option (BitVec 1)} {u' : State}
    (answered : issue p u = .answered bit u') (goesOn : endsRow p bit = false) :
    ∃ e late', bit = bitRead e ∧ Along i s (es ++ [e]) (late ++ late') rest u' := by
  obtain ⟨e, late', answers, rfl, hbus, htimer, hstate⟩ := answers_of_issue answered
  refine ⟨e, late', rfl, .next h.row ⟨answers, goesOn⟩, ?_,
    timerPassed_append.mpr ⟨_, _, _, rfl, h.timer, htimer⟩, ?_⟩
  · rw [h.bus, hbus, List.foldr_append]
    rfl
  · rw [← h.row.took_afterEvents answers, ← h.state]
    exact hstate

theorem Ran.along_from {row row' : List SeqStep} {last last' : Option (BitVec 1)} {u' : State}
    (h : Ran row last u row' last' u') (hfrom : Along i s es late row u) (hlast : last = lastBit es) :
    ∃ es' late', Along i s es' late' row' u' ∧ last' = lastBit es' := by
  induction h generalizing es late with
  | here => exact ⟨es, late, hfrom, hlast⟩
  | step answered goesOn _ ih =>
    obtain ⟨e, late', rfl, along⟩ := hfrom.answered answered goesOn
    exact ih along (lastBit_concat es e).symm

/-- Wherever a request has come in its row from its acceptance, it stands there after some events. -/
theorem Ran.along {bit : Option (BitVec 1)} (h : Ran (sequenceRow s.cfg i) none (s.accept i) rest bit u) :
    ∃ es late, Along i s es late rest u ∧ bit = lastBit es :=
  h.along_from ⟨.start, rfl, timerPassed_nil.mpr ⟨rfl, rfl⟩, (afterEvents_nil i s).symm⟩ rfl

end Along

/-! ## A request from IDLE, by the answers that are ready (R200, R201) -/

section Exec

variable {i : Instr} {s : State} {es : List Event} {e : Event} {late : List Nat} {p : SeqStep} {rest : List SeqStep}
  {b : Transport} {tm : Timer}

theorem precheck_eq_none {c : Config} : precheck c i = none ↔ checksPass c i = true := by
  refine ⟨checksPass_of_precheck, fun h => ?_⟩
  obtain ⟨hfamily, halarms⟩ := Bool.and_eq_true_iff.mp h
  simp [precheck, hfamily, halarms]

/-- From IDLE a request that fails a check ends there. -/
theorem exec_of_precheck {k : ErrorKind} (hst : s.st = .idle) (h : precheck s.cfg i = some k) :
    exec i s = .next (failedWith k s) := by
  simp [exec_eq, enter, hst, h, State.raise, State.accept, failedWith]

/-- From IDLE a request that passes its checks runs its row, from its acceptance. -/
theorem exec_eq_runSteps (hst : s.st = .idle) (hchecks : checksPass s.cfg i = true) :
    exec i s = runSteps (completionOf i) (sequenceRow s.cfg i) none (s.accept i) :=
  (exec_of_idle hst).trans (exec_of_latched (s := s.accept i) rfl rfl (precheck_eq_none.mpr hchecks))

theorem Ran.runSteps_eq (completion : Option (BitVec 1) → State → Result) {row row' : List SeqStep}
    {last last' : Option (BitVec 1)} {t : State} (h : Ran row last s row' last' t) :
    runSteps completion row last s = runSteps completion row' last' t := by
  induction h with
  | here => rfl
  | step answered goesOn _ ih => simpa [runSteps, answered, goesOn] using ih

/-- A request whose answers to the events `es` are ready goes on after them. -/
theorem AlongRow.exec_eq (h : AlongRow s.cfg i es rest) (hst : s.st = .idle) (hchecks : checksPass s.cfg i = true)
    (hbus : s.bus = es.foldr putBack b) (htimer : TimerPassed es late s.timer tm) :
    exec i s = runSteps (completionOf i) rest (lastBit es) (s.afterEvents i es b tm) :=
  (exec_eq_runSteps hst hchecks).trans ((h.ran hbus htimer).runSteps_eq _)

/-- A step whose answer is not ready blocks its request (R11, R64). -/
theorem AlongRow.exec_blocked (h : AlongRow s.cfg i es (p :: rest)) (hst : s.st = .idle)
    (hchecks : checksPass s.cfg i = true) (hbus : s.bus = es.foldr putBack b)
    (htimer : TimerPassed es late s.timer tm) (waits : Unanswered (stepPrim p) (s.afterEvents i es b tm)) :
    exec i s = .next (s.afterEvents i es b tm) := by
  rw [h.exec_eq hst hchecks hbus htimer, runSteps, issue_waiting.mpr waits]

/-- A step that fails ends its request in BusError (R203, R217, R269). -/
theorem AlongRow.exec_failed (h : AlongRow s.cfg i es (p :: rest)) (fails : Fails p e) (hst : s.st = .idle)
    (hchecks : checksPass s.cfg i = true) (hbus : s.bus = (es ++ [e]).foldr putBack b) :
    exec i s = .next
      { failedWith .busError s with rx := receivedIn es, bus := b, trace := s.trace ++ es ++ [e] } := by
  rw [List.foldr_append] at hbus
  rw [h.exec_eq hst hchecks hbus (timerPassed_refl h.noDelay _), runSteps,
    issue_eq_failed.mpr ⟨e, b, fails, rfl, rfl⟩]
  rfl

/-- A poll that answers 1 completes its request (R213). -/
theorem AlongRow.exec_polled (h : AlongRow s.cfg i es (.pollBit :: rest)) (hst : s.st = .idle)
    (hchecks : checksPass s.cfg i = true) (hbus : s.bus = (es ++ [Event.readBit (.ok 1)]).foldr putBack b) :
    exec i s = completionOf i (some 1) (s.afterEvents i (es ++ [.readBit (.ok 1)]) b s.timer) := by
  rw [List.foldr_append] at hbus
  rw [h.exec_eq hst hchecks hbus (timerPassed_refl h.noDelay _), runSteps,
    issue_of_answers (.pollBit 1) rfl (timerPassed_refl (by simp [isDelay]) _), h.took_afterEvents (.pollBit 1)]
  rfl

/-- A request whose row is answered in full completes on the last event's bit (R200). -/
theorem exec_of_allAnswered (hst : s.st = .idle) (hchecks : checksPass s.cfg i = true)
    (hprims : es.map eventPrim = (sequenceRow s.cfg i).map stepPrim)
    (hok : ∀ x ∈ es, eventOk x = true ∧ (x = .readBit (.ok 1) → .pollBit ∉ sequenceRow s.cfg i))
    (hbus : s.bus = es.foldr putBack b) (htimer : TimerPassed es late s.timer tm) :
    exec i s = completionOf i (lastBit es) (s.afterEvents i es b tm) := by
  have along := alongRow_of_prims (hprims ▸ List.prefix_refl _) hok
  have hlen : es.length = (sequenceRow s.cfg i).length := by simpa using congrArg List.length hprims
  rw [hlen, List.drop_length] at along
  exact along.exec_eq hst hchecks hbus htimer

end Exec

end Sys2Proof.Machine
end

section
/-! PROOFS. How a request's bus phase ends: at its checks, blocked, failed, at a poll that is done or at the end of its row
(R200, R201, R203, R208, R213, R217). -/

namespace Sys2Proof.Machine

open Sys2Proof.Claims

/-- How a request accepted in `s` that answers `t` has ended its bus phase: it is blocked at a step, it failed at one, a
poll answered 1, or it went through its whole row. -/
inductive BusEnd (i : Instr) (s t : State) : Prop where
  | blocked {es : List Event} {late : List Nat} {p : SeqStep} {rest : List SeqStep}
      (along : Along i s es late (p :: rest) t) (waits : Unanswered (stepPrim p) t)
  | failed {es : List Event} {e : Event} {p : SeqStep} {rest : List SeqStep} {b : Transport}
      (row : AlongRow s.cfg i es (p :: rest)) (fails : Fails p e) (bus : s.bus = (es ++ [e]).foldr putBack b)
      (raised : t = { failedWith .busError s with rx := receivedIn es, bus := b, trace := s.trace ++ es ++ [e] })
  | polled {es : List Event} {rest : List SeqStep} {b : Transport} (row : AlongRow s.cfg i es (.pollBit :: rest))
      (bus : s.bus = (es ++ [Event.readBit (.ok 1)]).foldr putBack b)
      (done : completionOf i (some 1) (s.afterEvents i (es ++ [.readBit (.ok 1)]) b s.timer) = .next t)
  | finished {es : List Event} {late : List Nat} {b : Transport} {tm : Timer} (row : AlongRow s.cfg i es [])
      (bus : s.bus = es.foldr putBack b) (timer : TimerPassed es late s.timer tm)
      (done : completionOf i (lastBit es) (s.afterEvents i es b tm) = .next t)

section BusEnd

variable {i : Instr} {s t : State} {es : List Event} {e : Event} {late : List Nat} {p : SeqStep} {rest : List SeqStep}

theorem Along.timer_eq (h : Along i s es late (p :: rest) t) : t.timer = s.timer := by
  obtain ⟨-, htimer⟩ := (timerPassed_of_noDelay h.row.noDelay).mp h.timer
  exact htimer

/-- The registers of a request that stands blocked, and the primitive it presents (R22, R26, R27, R204). -/
theorem Along.blocked_registers (h : Along i s es late (p :: rest) t) :
    t.st = .busy ∧ t.trace = s.trace ++ es ∧ t.rx = receivedIn es ∧ t.portOut = some (stepPrim p) := by
  rw [h.state]
  exact ⟨rfl, rfl, rfl, by simp [State.portOut, State.afterEvents, h.row.step_eq]⟩

/-- Everything a request from IDLE that passes its checks can do. -/
theorem busEnd (hst : s.st = .idle) (hchecks : checksPass s.cfg i = true) (h : exec i s = .next t) : BusEnd i s t := by
  have run := runSteps_cases (completionOf i) (sequenceRow s.cfg i) none (s.accept i)
  rw [← exec_eq_runSteps hst hchecks, h] at run
  generalize hout : (Host.Outcome.next t : Result) = out at run
  cases run with
  | blocked ran waits =>
    cases hout
    obtain ⟨es, late, along, -⟩ := ran.along
    exact .blocked along (issue_waiting.mp waits)
  | failed ran failed =>
    cases hout
    obtain ⟨es, late, along, -⟩ := ran.along
    obtain ⟨e, b, fails, hbus, rfl⟩ := issue_eq_failed.mp failed
    refine .failed along.row fails (b := b) ?_ ?_
    · rw [along.bus, hbus, List.foldr_append]
      rfl
    · rw [along.state, along.timer_eq]
      rfl
  | polled ran answered ends =>
    obtain ⟨es, late, along, -⟩ := ran.along
    obtain ⟨e, late', answers, rfl, hbus, htimer, hstate⟩ := answers_of_issue answered
    obtain ⟨rfl, rfl⟩ := endsRow_bitRead.mp ends
    obtain ⟨-, htimer⟩ := (timerPassed_of_noDelay (by simp [isDelay])).mp htimer
    rw [hstate, htimer, along.timer_eq, along.state, along.row.took_afterEvents answers] at hout
    refine .polled along.row ?_ hout.symm
    rw [along.bus, hbus, List.foldr_append]
    rfl
  | finished ran =>
    obtain ⟨es, late, along, rfl⟩ := ran.along
    rw [along.state] at hout
    exact .finished along.row along.bus along.timer hout.symm

/-- What a completion leaves of the bus phase before it. -/
theorem completed_afterEvents {b : Transport} {tm : Timer} {bit : Option (BitVec 1)}
    (done : completionOf i bit (s.afterEvents i es b tm) = .next t) :
    t.trace = s.trace ++ es ∧ t.bus = b ∧ t.timer = tm ∧ t.rx = receivedIn es ∧ t.st = .idle ∧ t.step = 0 := by
  obtain ⟨⟨hst, -, hstep⟩, ⟨-, hrx, -, -, hbus, htimer, htrace⟩, -⟩ := completionOf_next done
  exact ⟨htrace, hbus, htimer, hrx, hst, hstep⟩

end BusEnd

/-! ## The events of a bus phase in its row -/

section Row

variable {c : Config} {i : Instr} {es : List Event} {e : Event} {p : SeqStep} {rest : List SeqStep}

theorem AlongRow.startsWith (h : AlongRow c i es rest) : es.map eventPrim <+: (sequenceRow c i).map stepPrim :=
  ⟨_, h.prims.symm⟩

theorem AlongRow.startsWith_concat (h : AlongRow c i es (p :: rest)) (he : eventPrim e = stepPrim p) :
    (es ++ [e]).map eventPrim <+: (sequenceRow c i).map stepPrim :=
  ⟨rest.map stepPrim, by simp [h.prims, he]⟩

theorem AlongRow.dropLast_notDone (h : AlongRow c i es rest) :
    ∀ x ∈ es.dropLast, eventOk x = true ∧ x ≠ .readBit (.ok 1) := by
  cases h with
  | start => simp
  | next along => simpa using along.notDone

theorem AlongRow.timerPassed_concat (h : AlongRow c i es (p :: rest)) (he : isDelay e = false) (tm : Timer) :
    TimerPassed (es ++ [e]) [] tm tm :=
  timerPassed_append.mpr ⟨[], [], tm, rfl, timerPassed_refl h.noDelay tm, timerPassed_refl (by simpa using he) tm⟩

/-- Only RECALL_EEPROM polls, and only where R213 has it poll. -/
theorem recallPoll_of_mem (h : .pollBit ∈ sequenceRow c i) : c.recallPoll = true ∧ ∃ a, i = .recallEeprom a := by
  obtain ⟨a, rfl⟩ := mayIssue_of_mem_sequenceRow c i _ h
  refine ⟨?_, a, rfl⟩
  by_contra hpoll
  simp [sequenceRow, rowRecallEeprom, openAddressed, hpoll] at h

end Row

/-! ## The two scratchpad reads side by side (R208, R209) -/

/-- The status of a decode does not depend on the record it answers. -/
theorem decodeScratchpad_respStatus (record record' : Raw9 → Res → List Byte) (raw : Raw9) {s s' : State}
    (hcfg : s'.cfg = s.cfg) :
    (decodeScratchpad record' raw s').respStatus = (decodeScratchpad record raw s).respStatus := by
  simp only [decodeScratchpad, computeCrc_eq, crcRelease_cfg, hcfg]
  split
  · split <;> rfl
  · rfl

theorem Unanswered.congr {p : Prim} {t t' : State} (h : Unanswered p t) (hbus : t'.bus = t.bus)
    (htimer : t'.timer = t.timer) : Unanswered p t' := by
  simpa only [Unanswered, hbus, htimer] using h

end Sys2Proof.Machine

namespace Sys2Proof

open Machine Claims

/-- Settles O39: the events before the failing one bring the request to the step it is of, which then fails. -/
theorem failedPrimitiveIsBusError : Obligations.FailedPrimitiveIsBusError := by
  intro i s es e left hst _ hchecks hprims hok hbad hbus
  have row := alongRow_of_prims (((List.prefix_append es [e]).map eventPrim).trans hprims) fun x hx =>
    ⟨(hok x hx).1, fun done => absurd done (hok x hx).2⟩
  obtain ⟨p, hdrop, hprim⟩ := exists_step_of_prims hprims
  rw [hdrop] at row
  obtain answers | fails := answers_or_fails hprim
  · obtain ⟨-, ok⟩ := answers.prim_ok
    exact absurd ok (by simp [hbad])
  · exact row.exec_failed fails hst hchecks hbus

/-- Settles O40, by the four ways a bus phase ends. -/
theorem busPhaseFollowsTheSequenceTable : Obligations.BusPhaseFollowsTheSequenceTable := by
  intro i s t hst _ hchecks h
  have noFailure {es : List Event} (ok : ∀ e ∈ es, eventOk e = true) : ¬ ∃ e ∈ es, eventOk e = false :=
    fun ⟨e, he, hbad⟩ => by simp [ok e he] at hbad
  cases busEnd hst hchecks h with
  | @blocked es late p rest along waits =>
    have row := along.row
    obtain ⟨hbusy, htrace, hrx, hport⟩ := along.blocked_registers
    refine ⟨es, late, htrace, along.bus, along.timer, hrx, row.startsWith, row.dropLast_notDone,
      fun failed => absurd failed (noFailure row.ok),
      fun _ => ⟨?_, row.notDone, p, row.step_eq, hport, waits⟩,
      fun hidle => (nomatch hbusy.symm.trans hidle)⟩
    rw [hrx, htrace]
    exact along.state
  | @failed es e p rest b row fails hbus raised =>
    obtain ⟨hprim, hbad⟩ := fails.prim_not_ok
    obtain ⟨noDelay, noRead⟩ := fails.not_delay_not_read
    subst raised
    refine ⟨es ++ [e], [], List.append_assoc .., hbus, row.timerPassed_concat noDelay _, ?_,
      row.startsWith_concat hprim, by simpa using row.notDone, fun _ => rfl, nofun,
      fun _ ok => absurd ⟨e, by simp, hbad⟩ (noFailure ok)⟩
    simp [receivedIn, noRead]
  | @polled es rest b row hbus done =>
    obtain ⟨htrace, rfl, htimer, hrx, hidle, -⟩ := completed_afterEvents done
    obtain ⟨hpoll, hi⟩ := recallPoll_of_mem row.step_mem
    have ok : ∀ x ∈ es ++ [Event.readBit (.ok 1)], eventOk x = true := by
      simpa [or_imp, forall_and, eventOk] using row.ok
    exact ⟨es ++ [Event.readBit (.ok 1)], [], htrace, hbus, htimer ▸ row.timerPassed_concat rfl _, hrx,
      row.startsWith_concat rfl, by simpa using row.notDone, fun failed => absurd failed (noFailure ok),
      fun hbusy => (nomatch hbusy.symm.trans hidle), fun _ _ => .inr ⟨hpoll, hi, by simp⟩⟩
  | @finished es late b tm row hbus htimer done =>
    obtain ⟨htrace, rfl, rfl, hrx, hidle, -⟩ := completed_afterEvents done
    exact ⟨es, late, htrace, hbus, htimer, hrx, row.startsWith, row.dropLast_notDone,
      fun failed => absurd failed (noFailure row.ok), fun hbusy => (nomatch hbusy.symm.trans hidle),
      fun _ _ => .inl (by simpa using row.prims.symm)⟩

/-- Settles O42: the two requests make the same checks and have the same row, so the bus phase of the one, however it
ends, is one of the other; and what is decoded at its end is the same nine bytes. -/
theorem readDataTracesAsReadScratchpad : Obligations.ReadDataTracesAsReadScratchpad := by
  intro a s t u hst ht hu
  have sameRow {es : List Event} {rest : List SeqStep} (row : AlongRow s.cfg (.readScratchpad a) es rest) :
      AlongRow s.cfg (.readData a) es rest := row.of_row_eq rfl
  cases hpre : precheck s.cfg (.readScratchpad a) with
  | some k =>
    cases (exec_of_precheck hst hpre).symm.trans ht
    cases (exec_of_precheck (i := .readData a) hst hpre).symm.trans hu
    exact ⟨rfl, rfl, rfl, rfl, rfl⟩
  | none =>
    have hchecks := precheck_eq_none.mp hpre
    have hchecks' : checksPass s.cfg (.readData a) = true := hchecks
    cases busEnd hst hchecks ht with
    | blocked along waits =>
      have blocked := (sameRow along.row).exec_blocked hst hchecks' along.bus along.timer (waits.congr rfl rfl)
      cases blocked.symm.trans hu
      rw [along.state]
      exact ⟨rfl, rfl, rfl, rfl, rfl⟩
    | failed row fails hbus raised =>
      cases ((sameRow row).exec_failed fails hst hchecks' hbus).symm.trans hu
      rw [raised]
      exact ⟨rfl, rfl, rfl, rfl, rfl⟩
    | polled row =>
      obtain ⟨-, _, hi⟩ := recallPoll_of_mem row.step_mem
      cases hi
    | finished row hbus htimer done =>
      have done' := ((sameRow row).exec_eq hst hchecks' hbus htimer).symm.trans hu
      obtain ⟨htrace, -, -, hrx, hidle, hstep⟩ := completed_afterEvents done
      obtain ⟨htrace', -, -, hrx', hidle', hstep'⟩ := completed_afterEvents done'
      refine ⟨htrace'.trans htrace.symm, hidle'.trans hidle.symm, hstep'.trans hstep.symm, hrx'.trans hrx.symm, ?_⟩
      obtain ⟨record, raw, hraw, rfl⟩ := completionOf_read ⟨a, .inl rfl⟩ done
      obtain ⟨record', raw', hraw', rfl⟩ := completionOf_read ⟨a, .inr rfl⟩ done'
      obtain rfl : raw' = raw := received_injective (hraw'.symm.trans hraw)
      exact decodeScratchpad_respStatus record record' raw' rfl

/-- Settles O38: the checks end the request at its acceptance, the family check first. -/
theorem checksComeBeforeTheBus : Obligations.ChecksComeBeforeTheBus := by
  refine fun i a s hst ha => ⟨fun hne => exec_of_precheck hst ?_, fun hfamily lo hi r hset hout => ?_⟩
  · simp [precheck, ha, familyOk, hne]
  · subst hset
    have hrange : (inAlarmRange lo && inAlarmRange hi) = false := by
      simp only [inAlarmRange, Bool.and_eq_false_iff, decide_eq_false_iff_not]
      omega
    exact exec_of_precheck hst (by simp [precheck, addressOf, alarmsFit, familyOk, hfamily, hrange])

end Sys2Proof
end

section
/-! PROOFS. The whole next states of the sequencer's requests, answered in full or polled to an end: the events whose
answers are ready are those of the row, and the completion is the row's (R205 to R214, R217). -/

namespace Sys2Proof.Machine

open Sys2Proof.Claims

/-! ## The answers ready for an addressed request -/

section Ready

variable {i : Instr} {a : Addr} {s : State} {n : Nat} {rs : List (Answer Presence)} {as : List (Answer Unit)}

theorem checksPass_of_family (ha : addressOf i = some a) (halarms : alarmsFit i = true)
    (hfamily : a.a0 = s.cfg.familyCode) : checksPass s.cfg i = true := by
  simp [checksPass, ha, halarms, familyOk, hfamily]

theorem idle_of_ready (h : Ready s a n rs as) : s.st = .idle := h.1

theorem checksPass_of_ready (h : Ready s a n rs as) (ha : addressOf i = some a) (halarms : alarmsFit i = true) :
    checksPass s.cfg i = true := by
  obtain ⟨-, hfamily, -⟩ := h
  exact checksPass_of_family ha halarms hfamily

theorem bus_of_ready (h : Ready s a n rs as) :
    s.bus = ⟨.ok .present :: rs, List.replicate n (.ok ()) ++ as, s.bus.bytes, s.bus.bits⟩ := by
  obtain ⟨-, -, hresets, hacks⟩ := h
  rw [← hresets, ← hacks]

end Ready

/-- A request that reads no byte, answered in full, leaves its answer, what is left on the ports, and its events. -/
theorem exec_responds {i : Instr} {s : State} {es : List Event} {late : List Nat} {b : Transport} {tm : Timer}
    {v : List Byte} (hst : s.st = .idle) (hchecks : checksPass s.cfg i = true)
    (hprims : es.map eventPrim = (sequenceRow s.cfg i).map stepPrim)
    (hok : ∀ x ∈ es, eventOk x = true ∧ (x = .readBit (.ok 1) → .pollBit ∉ sequenceRow s.cfg i))
    (hbus : s.bus = es.foldr putBack b) (htimer : TimerPassed es late s.timer tm)
    (hreads : es.filterMap byteRead = [])
    (hv : completionOf i (lastBit es) (s.afterEvents i es b tm) = complete v (s.afterEvents i es b tm)) :
    exec i s = .next { finished v s with bus := b, timer := tm, trace := s.trace ++ es } := by
  rw [exec_of_allAnswered hst hchecks hprims hok hbus htimer, hv, complete, respond_afterEvents hreads]

theorem zextBit_eq : ∀ p : BitVec 1, zextBit p = if p = 1 then 0x01 else 0x00 := by decide

/-! ## RECALL_EEPROM's completion and its polls (R213) -/

theorem completeRecall_of_noPoll {last : Option (BitVec 1)} {s : State} (hpoll : s.cfg.recallPoll = false) :
    completeRecall last s = complete [] s := by simp [completeRecall, hpoll]

theorem completeRecall_of_done (s : State) : completeRecall (some 1) s = complete [] s := by simp [completeRecall]

theorem completeRecall_of_notDone {last : Option (BitVec 1)} {s : State} (hpoll : s.cfg.recallPoll = true)
    (h : last ≠ some 1) : completeRecall last s = .next (s.raise .busError) := by
  rw [completeRecall, if_pos]
  simpa [hpoll] using h

theorem sequenceRow_recallEeprom_of_noPoll {c : Config} (hpoll : c.recallPoll = false) (a : Addr) :
    sequenceRow c (.recallEeprom a) = openAddressed a ++ [.write c.cmdRecall, .delayMs c.recallDelayMs] := by
  simp [sequenceRow, rowRecallEeprom, hpoll]

theorem sequenceRow_recallEeprom_of_poll {c : Config} (hpoll : c.recallPoll = true) (a : Addr) :
    sequenceRow c (.recallEeprom a) =
      openAddressed a ++ .write c.cmdRecall :: List.replicate c.recallPollLimit.toNat .pollBit := by
  simp [sequenceRow, rowRecallEeprom, hpoll]

/-- RECALL_EEPROM's events up to its `n`-th poll, all of them answered 0. -/
def pollEvents (c : Config) (a : Addr) (n : Nat) : List Event :=
  opened a ++ .write c.cmdRecall (.ok ()) :: List.replicate n (.readBit (.ok 0))

theorem filterMap_byteRead_pollEvents (c : Config) (a : Addr) (n : Nat) :
    (pollEvents c a n).filterMap byteRead = [] := by simp [pollEvents, opened, byteRead]

theorem lastBit_pollEvents_ne_one (c : Config) (a : Addr) (n : Nat) : lastBit (pollEvents c a n) ≠ some 1 :=
  lastBit_ne_one (by simp [pollEvents, opened])

theorem foldr_putBack_readBits (n : Nat) (x : Answer (BitVec 1)) (b : Transport) :
    (List.replicate n (.readBit x)).foldr putBack b = { b with bits := List.replicate n x ++ b.bits } := by
  induction n with
  | zero => rfl
  | succ n ih => simp [List.replicate_succ, ih, putBack]

theorem foldr_putBack_pollEvents (c : Config) (a : Addr) (n : Nat) (b : Transport) :
    (pollEvents c a n).foldr putBack b =
      ⟨.ok .present :: b.resets, .ok () :: .ok () :: b.acks, b.bytes, List.replicate n (.ok 0) ++ b.bits⟩ := by
  simp [pollEvents, opened, foldr_putBack_readBits, putBack]

section Polls

variable {a : Addr} {s : State} {rs : List (Answer Presence)} {as : List (Answer Unit)}
  {bits : List (Answer (BitVec 1))} {n : Nat}

/-- After `n` polls that answer 0 the row goes on with the polls that are left. -/
theorem alongRow_pollEvents {c : Config} (hpoll : c.recallPoll = true) (a : Addr) (hn : n ≤ c.recallPollLimit.toNat) :
    AlongRow c (.recallEeprom a) (pollEvents c a n) (List.replicate (c.recallPollLimit.toNat - n) .pollBit) := by
  have row := alongRow_of_prims (c := c) (i := .recallEeprom a) (es := pollEvents c a n) ?_ ?_
  · rw [sequenceRow_recallEeprom_of_poll hpoll] at row
    simpa [pollEvents, opened, openAddressed] using row
  · obtain ⟨k, hk⟩ := Nat.exists_eq_add_of_le hn
    refine ⟨List.replicate k .readBit, ?_⟩
    simp [sequenceRow_recallEeprom_of_poll hpoll, hk, pollEvents, opened, openAddressed, stepPrim, eventPrim]
  · simp [pollEvents, opened, eventOk]

/-- A poll within the limit that answers 1 completes the recall. -/
theorem exec_recallEeprom_of_done (hpoll : s.cfg.recallPoll = true) (h : Ready s a 2 rs as)
    (hn : n < s.cfg.recallPollLimit.toNat) (hbits : s.bus.bits = List.replicate n (.ok 0) ++ .ok 1 :: bits) :
    exec (.recallEeprom a) s = .next
      { finished [] s with
        bus := ⟨rs, as, s.bus.bytes, bits⟩, timer := s.timer
        trace := s.trace ++ (pollEvents s.cfg a n ++ [.readBit (.ok 1)]) } := by
  have row := alongRow_pollEvents hpoll a hn.le
  obtain ⟨k, hk⟩ := Nat.exists_eq_succ_of_ne_zero (Nat.sub_ne_zero_of_lt hn)
  rw [hk, List.replicate_succ] at row
  have hbus : s.bus =
      (pollEvents s.cfg a n ++ [Event.readBit (.ok 1)]).foldr putBack ⟨rs, as, s.bus.bytes, bits⟩ := by
    rw [List.foldr_append, foldr_putBack_pollEvents, bus_of_ready h, hbits]
    rfl
  have noRead : (pollEvents s.cfg a n ++ [Event.readBit (.ok 1)]).filterMap byteRead = [] := by
    rw [List.filterMap_append, filterMap_byteRead_pollEvents]
    rfl
  rw [row.exec_polled (idle_of_ready h) (checksPass_of_ready h rfl rfl) hbus, completionOf, completeRecall_of_done,
    complete, respond_afterEvents noRead]

/-- As many polls as the limit that all answer 0 end the recall in BusError. -/
theorem exec_recallEeprom_of_limit (hpoll : s.cfg.recallPoll = true) (h : Ready s a 2 rs as)
    (hn : n = s.cfg.recallPollLimit.toNat) (hbits : s.bus.bits = List.replicate n (.ok 0) ++ bits) :
    exec (.recallEeprom a) s = .next
      { failedWith .busError s with
        bus := ⟨rs, as, s.bus.bytes, bits⟩, timer := s.timer, trace := s.trace ++ pollEvents s.cfg a n } := by
  have row := alongRow_pollEvents hpoll a hn.le
  rw [← hn, Nat.sub_self] at row
  have hbus : s.bus = (pollEvents s.cfg a n).foldr putBack ⟨rs, as, s.bus.bytes, bits⟩ := by
    rw [foldr_putBack_pollEvents, bus_of_ready h, hbits]
    rfl
  have noDelay : TimerPassed (pollEvents s.cfg a n) [] s.timer s.timer :=
    timerPassed_refl (by simp [pollEvents, opened, isDelay]) _
  rw [row.exec_eq (idle_of_ready h) (checksPass_of_ready h rfl rfl) hbus noDelay, List.replicate_zero, runSteps,
    completionOf, completeRecall_of_notDone (s := s.afterEvents _ _ _ _) hpoll (lastBit_pollEvents_ne_one _ _ _),
    raise_afterEvents (filterMap_byteRead_pollEvents ..)]

end Polls

/-! ## The scratchpad reads (R208, R209) -/

/-- `i` is the scratchpad read of the device `a` that answers `record`. -/
def ReadsRecord (a : Addr) (i : Instr) (record : Raw9 → Res → List Byte) : Prop :=
  i = .readScratchpad a ∧ record = scratchpadRecord ∨ i = .readData a ∧ record = sensorRecord

/-- Where a scratchpad read stands when its nine bytes are read. -/
def State.afterRead (i : Instr) (a : Addr) (raw : Raw9) (rs : List (Answer Presence)) (as : List (Answer Unit))
    (bs : List (Answer Byte)) (s : State) : State :=
  s.afterEvents i (readEvents s.cfg a raw) ⟨rs, as, bs, s.bus.bits⟩ s.timer

theorem receivedIn_readEvents (c : Config) (a : Addr) (raw : Raw9) : receivedIn (readEvents c a raw) = received raw := by
  ext j hj : 1
  interval_cases j <;> simp only [receivedIn, Vector.getElem_ofFn] <;> rfl

theorem readRx_of_received {s : State} {raw : Raw9} (h : s.rx = received raw) : readRx s = .ok raw := by
  simp [readRx, h, received]

section Reads

variable {a : Addr} {i : Instr} {record : Raw9 → Res → List Byte} {raw : Raw9} {s : State}
  {rs : List (Answer Presence)} {as : List (Answer Unit)} {bs : List (Answer Byte)}

theorem respond_afterRead (v : List Byte) :
    (s.afterRead i a raw rs as bs).crcRelease.respond v = readDone v s a raw rs as bs := by
  rw [readDone, ← receivedIn_readEvents s.cfg a raw]
  rfl

theorem raise_afterRead (k : ErrorKind) :
    (s.afterRead i a raw rs as bs).crcRelease.raise k = readFailed k s a raw rs as bs := by
  rw [readFailed, ← receivedIn_readEvents s.cfg a raw]
  rfl

/-- A scratchpad read that is answered in full decodes the nine bytes. -/
theorem exec_scratchpadRead_of_ready (hi : ReadsRecord a i record) (h : ReadReady s a raw rs as bs) :
    exec i s = .next (decodeScratchpad record raw (s.afterRead i a raw rs as bs)) := by
  obtain ⟨ready, hbytes⟩ := h
  have hbus := bus_of_ready ready
  rw [hbytes] at hbus
  have hok : ∀ x ∈ readEvents s.cfg a raw,
      eventOk x = true ∧ (x = .readBit (.ok 1) → .pollBit ∉ sequenceRow s.cfg i) := by
    simp [readEvents, opened, eventOk]
  have noDelay : TimerPassed (readEvents s.cfg a raw) [] s.timer s.timer :=
    timerPassed_refl (by simp [readEvents, opened, isDelay]) _
  have hread : readRx (s.afterRead i a raw rs as bs) = .ok raw := readRx_of_received (receivedIn_readEvents ..)
  obtain ⟨rfl, rfl⟩ | ⟨rfl, rfl⟩ := hi
  all_goals
    refine (exec_of_allAnswered (b := ⟨rs, as, bs, s.bus.bits⟩) (idle_of_ready ready)
      (checksPass_of_ready ready rfl rfl) rfl hok hbus noDelay).trans ?_
    rw [completionOf, ← State.afterRead, completeRead, hread]

theorem exec_scratchpadRead_of_good {r : Res} (hi : ReadsRecord a i record) (h : ReadReady s a raw rs as bs)
    (hcrc : crc8 (rawData raw) = raw.b8) (hcfg : cfgDecode s.cfg raw.b4 = some r) :
    exec i s = .next (readDone (record raw r) s a raw rs as bs) := by
  rw [exec_scratchpadRead_of_ready hi h, decodeScratchpad_of_good (s := s.afterRead i a raw rs as bs) record hcrc hcfg,
    respond_afterRead]

end Reads

end Sys2Proof.Machine

namespace Sys2Proof

open Machine Claims

/-- Settles O36: the polls that answer 0 bring the row to the one that is done, or to its end. -/
theorem recallEepromPollsUntilDone : Obligations.RecallEepromPollsUntilDone := by
  refine fun a s rs as bits n hpoll h => ⟨fun hn hbits => ?_, fun hn hbits => ?_⟩ <;> rw [List.append_assoc]
  · exact exec_recallEeprom_of_done hpoll h hn hbits
  · exact exec_recallEeprom_of_limit hpoll h hn hbits

/-- Settles O26: its checks pass, and it has no bus phase. -/
theorem checkAddressAcceptsTheFamily : Obligations.CheckAddressAcceptsTheFamily :=
  fun _ _ hst hfamily => exec_of_idle_pure hst (precheck_eq_none.mpr (checksPass_of_family rfl rfl hfamily)) rfl

/-- Settles O27: its three events are answered. -/
theorem startConvAddrCompletes : Obligations.StartConvAddrCompletes := by
  intro a s rs as h
  rw [List.append_assoc]
  exact exec_responds (idle_of_ready h) (checksPass_of_ready h rfl rfl) rfl (by simp [opened, eventOk])
    (bus_of_ready h) (timerPassed_refl (by simp [opened, isDelay]) _) rfl rfl

/-- Settles O28: its three events are answered, and it has no check to pass. -/
theorem startConvAllCompletes : Obligations.StartConvAllCompletes := by
  intro s rs as hst hresets hacks
  have hbus : s.bus = ⟨.ok .present :: rs, .ok () :: .ok () :: as, s.bus.bytes, s.bus.bits⟩ := by
    rw [← hresets, ← hacks]
  exact exec_responds hst rfl rfl (by simp [eventOk]) hbus (timerPassed_refl (by simp [isDelay]) _) rfl rfl

/-- Settles O29: the decode of good bytes answers SP_DECODE's record, whose word is bytes 0 and 1. -/
theorem readScratchpadCompletes : Obligations.ReadScratchpadCompletes := by
  intro a raw r s rs as bs h hcrc hcfg
  rw [exec_scratchpadRead_of_good (.inl ⟨rfl, rfl⟩) h hcrc hcfg]
  simp [scratchpadRecord, le16, rawTemp, rawTh, rawTl, rawCrc]

/-- Settles O30: the decode of good bytes answers SENSOR_DATA's record. -/
theorem readDataCompletes : Obligations.ReadDataCompletes :=
  fun _ _ _ _ _ _ _ h hcrc hcfg => exec_scratchpadRead_of_good (.inr ⟨rfl, rfl⟩) h hcrc hcfg

/-- Settles O31: the decode of bad bytes raises its error, after the events of a good read. -/
theorem scratchpadReadsReportBadBytes : Obligations.ScratchpadReadsReportBadBytes := by
  intro a raw s rs as bs i hi h
  obtain ⟨record, reads⟩ : ∃ record, ReadsRecord a i record :=
    hi.elim (fun hi => ⟨_, .inl ⟨hi, rfl⟩⟩) fun hi => ⟨_, .inr ⟨hi, rfl⟩⟩
  refine ⟨fun bad => ?_, fun good hcfg => ?_⟩ <;> rw [exec_scratchpadRead_of_ready reads h]
  · rw [decodeScratchpad_of_badCrc record bad, raise_afterRead]
  · rw [decodeScratchpad_of_badConfig (s := s.afterRead i a raw rs as bs) record good hcfg, raise_afterRead]

/-- Settles O32: its six events are answered. -/
theorem writeScratchpadCompletes : Obligations.WriteScratchpadCompletes := by
  intro a th tl cfg s rs as h
  rw [List.append_assoc]
  exact exec_responds (idle_of_ready h) (checksPass_of_ready h rfl rfl) rfl (by simp [opened, eventOk])
    (bus_of_ready h) (timerPassed_refl (by simp [opened, isDelay]) _) rfl rfl

/-- Settles O33: its six events are answered, and an alarm's byte is its low byte, which holds an operand in range. -/
theorem setConfigCompletes : Obligations.SetConfigCompletes := by
  intro a lo hi r s rs as h hlo hlo' hhi hhi'
  refine ⟨?_, alarmDegrees_loByte hhi hhi', alarmDegrees_loByte hlo hlo'⟩
  have halarms : alarmsFit (.setConfig a lo hi r) = true := by simp [alarmsFit, inAlarmRange, hlo, hlo', hhi, hhi']
  rw [List.append_assoc, ← trunc8_toInt, ← trunc8_toInt]
  exact exec_responds (idle_of_ready h) (checksPass_of_ready h rfl halarms) rfl (by simp [opened, eventOk])
    (bus_of_ready h) (timerPassed_refl (by simp [opened, isDelay]) _) rfl rfl

/-- Settles O34: its three events are answered, and its delay has ended. -/
theorem copyScratchpadCompletesAfterTheDelay : Obligations.CopyScratchpadCompletesAfterTheDelay := by
  intro a s rs as extra ends h hends
  rw [List.append_assoc]
  exact exec_responds (late := [extra]) (idle_of_ready h) (checksPass_of_ready h rfl rfl) rfl
    (by simp [opened, eventOk]) (bus_of_ready h)
    ⟨rfl, hends, by simp [opened, eventPrim, primUs, Nat.add_assoc]⟩ rfl rfl

/-- Settles O35: without polling its row ends in a delay, which has ended. -/
theorem recallEepromCompletesAfterTheDelay : Obligations.RecallEepromCompletesAfterTheDelay := by
  intro a s rs as extra ends hpoll h hends
  rw [List.append_assoc]
  exact exec_responds (late := [extra]) (idle_of_ready h) (checksPass_of_ready h rfl rfl)
    (by rw [sequenceRow_recallEeprom_of_noPoll hpoll]; rfl) (by simp [opened, eventOk]) (bus_of_ready h)
    ⟨rfl, hends, by simp [opened, eventPrim, primUs, Nat.add_assoc]⟩ rfl (completeRecall_of_noPoll hpoll)

/-- Settles O37: its row ends in a read-bit that is no poll, whose bit is the answer. -/
theorem readPowerAnswersTheBit : Obligations.ReadPowerAnswersTheBit := by
  intro a p s rs as bits h hbits
  have hbus := bus_of_ready h
  rw [hbits] at hbus
  rw [List.append_assoc, ← zextBit_eq]
  exact exec_responds (idle_of_ready h) (checksPass_of_ready h rfl rfl) rfl
    (by simp [opened, eventOk, sequenceRow, rowReadPower, openAddressed]) hbus
    (timerPassed_refl (by simp [opened, isDelay]) _) rfl rfl

end Sys2Proof
end

section
/-! PROOFS. The errors as statuses: where a request's checks, its bus phase and its completion end it, R267 marks the error
it ends in; and from IDLE nothing stops it, for its completion finds what it reads (R260, R267). -/

namespace Sys2Proof.Machine

open Sys2Proof.Claims

section Statuses

variable {i : Instr} {c : Config}

/-! ## The errors a request's checks and its bus phase can raise (R201, R217, R267) -/

/-- Every request that names an address checks its family (R201). -/
theorem wrongFamilyError_mem_possibleErrors {a : Addr} (h : addressOf i = some a) :
    .wrongFamilyError ∈ possibleErrors i := by
  cases i with
  | crcCompute | crcVerify | spDecode | spEncodeConfig | sensorData | tempConvert | convTime | regBits | fromRegBits
  | startConvAll => cases h
  | _ => simp [possibleErrors]

/-- Only SET_CONFIG has alarm operands to be out of range (R201). -/
theorem outOfRangeError_mem_possibleErrors (h : alarmsFit i = false) : .outOfRangeError ∈ possibleErrors i := by
  cases i with
  | setConfig => simp [possibleErrors]
  | _ => cases h

theorem precheck_mem_possibleErrors {k : ErrorKind} (h : precheck c i = some k) : k ∈ possibleErrors i := by
  unfold precheck at h
  split at h
  · split at h <;> cases h
    exact outOfRangeError_mem_possibleErrors (eq_false_of_ne_true ‹_›)
  · rename_i hfamily
    cases h
    cases ha : addressOf i with
    | none => simp [ha] at hfamily
    | some a => exact wrongFamilyError_mem_possibleErrors ha

/-- Every request whose row has a step can fail at it (R203, R217). -/
theorem busError_mem_possibleErrors {p : SeqStep} (h : p ∈ sequenceRow c i) : .busError ∈ possibleErrors i := by
  cases i with
  | crcCompute | crcVerify | spDecode | spEncodeConfig | sensorData | tempConvert | convTime | regBits | fromRegBits
  | checkAddress => cases h
  | _ => simp [possibleErrors]

/-! ## Where a row ends, its completion answers (R27, R213, R214) -/

/-- The completion of a request that polls reads neither `rx` nor a bit. -/
theorem completionOf_answers_of_polls (h : .pollBit ∈ sequenceRow c i) (bit : Option (BitVec 1)) (u : State) :
    ∃ t, completionOf i bit u = .next t := by
  obtain ⟨-, a, rfl⟩ := recallPoll_of_mem h
  exact completionOf_answers (by rintro ⟨_, h | h⟩ <;> cases h) nofun

/-- At the end of its row a request accepted in `s`, whatever its parameters, has received what its completion reads. -/
theorem Ran.completes {s u : State} {bit : Option (BitVec 1)}
    (h : Ran (sequenceRow s.cfg i) none (s.accept i) [] bit u) : ∃ t, completionOf i bit u = .next t := by
  obtain ⟨hon, hrest⟩ := h.onRow rfl (onRow_accept i s)
  refine completionOf_answers (fun hread j => ?_) fun a hi => ?_
  · obtain ⟨⟨a, hrow⟩, hcount⟩ := sequenceRow_of_isScratchpadRead hread u.cfg
    have hstep : 12 ≤ u.step := by
      rw [hrow] at hrest
      exact List.drop_eq_nil_iff.mp hrest.symm
    rw [hon.received j, hcount]
    exact decide_eq_true (by omega)
  · subst hi
    exact h.bit_isSome rfl

end Statuses

end Sys2Proof.Machine

namespace Sys2Proof

open Machine Claims

/-- Settles O43: a check that fails, a step that fails and a completion each end the request in an error that R267 marks
for it. -/
theorem requestsEndOnlyInTheirStatuses : Obligations.RequestsEndOnlyInTheirStatuses := by
  intro i s t hst h hidle
  cases hpre : precheck s.cfg i with
  | some k =>
    cases (exec_of_precheck hst hpre).symm.trans h
    exact .inr ⟨k, precheck_mem_possibleErrors hpre, rfl⟩
  | none =>
    have completed {bit : Option (BitVec 1)} {u : State} (done : completionOf i bit u = .next t) :
        t.respStatus = some .ok ∨ ∃ e ∈ possibleErrors i, t.respStatus = some (.error e) := by
      obtain ⟨-, -, -, hstatus⟩ := completionOf_next done
      exact hstatus
    cases busEnd hst (precheck_eq_none.mp hpre) h with
    | blocked along =>
      obtain ⟨hbusy, -⟩ := along.blocked_registers
      cases hbusy.symm.trans hidle
    | failed row _ _ raised => exact .inr ⟨.busError, busError_mem_possibleErrors row.step_mem, by rw [raised]; rfl⟩
    | polled _ _ done => exact completed done
    | finished _ _ _ done => exact completed done

/-- Settles O54: checks, blocked steps and failed steps answer a next state by themselves, and so does a completion, at a
poll that is done or at the end of the row. -/
theorem idleRequestsNeverStop : Obligations.IdleRequestsNeverStop := by
  intro i s hst
  cases hpre : precheck s.cfg i with
  | some k => exact ⟨_, exec_of_precheck hst hpre⟩
  | none =>
    have run := runSteps_cases (completionOf i) (sequenceRow s.cfg i) none (s.accept i)
    rw [← exec_eq_runSteps hst (precheck_eq_none.mp hpre)] at run
    generalize exec i s = out at run
    cases run with
    | blocked | failed => exact ⟨_, rfl⟩
    | @polled p _ _ bit _ _ ran _ ends =>
      obtain ⟨rfl, -⟩ : p = .pollBit ∧ bit = some 1 := by simpa [endsRow] using ends
      exact completionOf_answers_of_polls (ran.suffix.subset List.mem_cons_self) _ _
    | finished ran => exact ran.completes

end Sys2Proof
end

section
/-! PROOFS. The core in closed loop with one reference device: the core stands blocked at each step of its row, the
device answers it, and so the request runs through its row while the device takes its turns; and what a reference device
makes of the rows of a scratchpad write, a scratchpad read and a copy (R72 to R76, R299, R302). -/

namespace Sys2Proof.Machine

open Sys2Proof.Claims

/-! ## The core with no answer ready (R11, R64) -/

/-- A core in IDLE with nothing ready on its ports, `rst` deasserted. -/
structure AtRest (s : State) : Prop where
  rst  : s.rst = false
  idle : s.st = .idle
  bus  : s.bus = ⟨[], [], [], []⟩
  ends : s.timer.ends = []

theorem unanswered_of_quiet {s : State} (hbus : s.bus = ⟨[], [], [], []⟩) (hends : s.timer.ends = []) (p : Prim) :
    Unanswered p s := by
  cases p <;> simp [Unanswered, hbus, hends]

/-! ## The answer of a device (R23, R71, R74) -/

/-- The event with which a device on its own, whose transport answers no `Err`, answers a step. -/
def turnEvent (p : SeqStep) (d : Device) : Event :=
  match p with
  | .reset => .reset (.ok .present)
  | .select a => .select a (.ok ())
  | .skip => .skip (.ok ())
  | .write b => .write b (.ok ())
  | .readInto _ => .read (.ok (devByte d))
  | .readBit => .readBit (.ok (devBit d))
  | .pollBit => .readBit (.ok (devBit d))
  | .delayMs n => .delayMs n

theorem answers_turnEvent (p : SeqStep) (d : Device) : Answers p (turnEvent p d) := by
  cases p <;> constructor

section BusAnswer

variable (x : StepDraw) (p : Prim) (ds : List Device) (s : State)

@[simp] theorem busAnswer_cfg : (busAnswer x p ds s).cfg = s.cfg := by cases p <;> rfl
@[simp] theorem busAnswer_st : (busAnswer x p ds s).st = s.st := by cases p <;> rfl
@[simp] theorem busAnswer_req : (busAnswer x p ds s).req = s.req := by cases p <;> rfl
@[simp] theorem busAnswer_step : (busAnswer x p ds s).step = s.step := by cases p <;> rfl
@[simp] theorem busAnswer_rst : (busAnswer x p ds s).rst = s.rst := by cases p <;> rfl

end BusAnswer

section Alone

variable {x : StepDraw} {s : State} (p : SeqStep) (d : Device)

/-- On a bus that is otherwise quiet a device's answer is the only one ready. -/
theorem busAnswer_bus (hx : x.err = false) (hbus : s.bus = ⟨[], [], [], []⟩) :
    (busAnswer x (stepPrim p) [d] s).bus = putBack (turnEvent p d) ⟨[], [], [], []⟩ := by
  have byteLine (b : Byte) : 255#8 &&& b = b := BitVec.allOnes_and
  have bitLine (b : BitVec 1) : 1#1 &&& b = b := BitVec.allOnes_and
  cases p <;> simp [busAnswer, stepPrim, turnEvent, putBack, StepDraw.answer, hx, hbus, byteLine, bitLine,
    State.setResets, State.setAcks, State.setBytes, State.setBits]

/-- A delay's end is used up by the delay. -/
theorem busAnswer_timer (hends : s.timer.ends = []) :
    ∃ late tm, tm.ends = [] ∧ TimerPassed [turnEvent p d] late (busAnswer x (stepPrim p) [d] s).timer tm := by
  cases p with
  | delayMs n => exact ⟨[x.extraUs], ⟨[], _⟩, rfl, rfl, by simp [busAnswer, stepPrim, hends], rfl⟩
  | _ => exact ⟨[], s.timer, hends, timerPassed_refl (by simp [turnEvent, isDelay]) _⟩

/-- A core with nothing ready takes the answer of a device that is alone on the bus, and has nothing ready again. -/
theorem issue_busAnswer (hx : x.err = false) (hbus : s.bus = ⟨[], [], [], []⟩) (hends : s.timer.ends = []) :
    ∃ tm : Timer, tm.ends = [] ∧ issue p (busAnswer x (stepPrim p) [d] s) =
      .answered (bitRead (turnEvent p d)) (s.took p (turnEvent p d) s.bus tm) := by
  obtain ⟨late, tm, htm, htimer⟩ := busAnswer_timer p d (x := x) hends
  refine ⟨tm, htm, ?_⟩
  rw [issue_of_answers (answers_turnEvent p d) (busAnswer_bus p d hx hbus) htimer, hbus]
  cases p <;> rfl

end Alone

/-! ## The closed loop, step by step -/

/-- A device after its turn in a primitive that is answered, and the time the step takes. -/
def devStep (c : Config) (x : StepDraw) (p : Prim) (d : Device) : Device :=
  devElapse (primUs p + x.extraUs) (devTurn c (x.dev 0) p d)

/-- How the closed loop goes on from what the core's step answered. -/
def System.proceed (xs : List StepDraw) (ds : List Device) (out : Result) : Option System :=
  match out with
  | .next t => System.run xs ⟨t, ds⟩
  | .fault _ => none
  | .refused _ => none

theorem System.run_cons (x : StepDraw) (xs : List StepDraw) {y : System}
    (hdef : ∀ d ∈ (y.answer x).devices, d.phase ≠ .undefined) :
    System.run (x :: xs) y = proceed xs (y.answer x).devices (Machine.step (y.answer x).core) := by
  have defined : ((y.answer x).devices.any fun d => d.phase == .undefined) = false := by simpa using hdef
  simp only [run, System.step, defined, Bool.false_eq_true, if_false]
  cases Machine.step (y.answer x).core <;> rfl

section Loop

variable {x : StepDraw} {s : State} {d : Device}

/-- With a core that presents nothing only time passes at the device. -/
theorem System.run_of_idle (xs : List StepDraw) (hrst : s.rst = false) (hst : s.st = .idle)
    (hdef : d.phase ≠ .undefined) :
    System.run (x :: xs) ⟨s, [d]⟩ = proceed xs [devElapse x.extraUs d] (Machine.step s) := by
  have hanswer : System.answer x ⟨s, [d]⟩ = ⟨s, [devElapse x.extraUs d]⟩ := by
    simp [System.answer, hrst, State.portOut, hst]
  rw [System.run_cons, hanswer]
  simpa [hanswer] using hdef

/-- The device takes its turn in the primitive that the core presents. -/
theorem System.run_of_presented (xs : List StepDraw) {p : Prim} (hrst : s.rst = false) (hport : s.portOut = some p)
    (hx : x.err = false) (hdef : (devTurn s.cfg (x.dev 0) p d).phase ≠ .undefined) :
    System.run (x :: xs) ⟨s, [d]⟩ = proceed xs [devStep s.cfg x p d] (Machine.step (busAnswer x p [d] s)) := by
  have hanswer : System.answer x ⟨s, [d]⟩ = ⟨busAnswer x p [d] s, [devStep s.cfg x p d]⟩ := by
    simp [System.answer, hrst, hport, busTurn, hx, devStep]
  rw [System.run_cons, hanswer]
  simpa [hanswer, devStep] using hdef

end Loop

/-! ## A request in closed loop (R64, R200) -/

/-- Draws without `Err`, one for each step of a row: the device `d` answers the steps with the events `es` and is `e`
after them. -/
inductive Exchange (c : Config) : List StepDraw → List SeqStep → Device → List Event → Device → Prop where
  | done (d : Device) : Exchange c [] [] d [] d
  | turn {x : StepDraw} {xs : List StepDraw} {p : SeqStep} {ps : List SeqStep} {d e : Device} {es : List Event}
      (noErr : x.err = false) (defined : (devTurn c (x.dev 0) (stepPrim p) d).phase ≠ .undefined)
      (more : Exchange c xs ps (devStep c x (stepPrim p) d) es e) :
      Exchange c (x :: xs) (p :: ps) d (turnEvent p d :: es) e

/-- A latched request goes on from what the bus has answered. -/
theorem step_busAnswer_of_latched {i : Instr} {s : State} (x : StepDraw) (p : Prim) (ds : List Device)
    (hrst : s.rst = false) (hst : s.st = .busy) (hreq : s.req = some i) (hchecks : checksPass s.cfg i = true) :
    Machine.step (busAnswer x p ds s) =
      runSteps (completionOf i) ((sequenceRow s.cfg i).drop s.step) none (busAnswer x p ds s) := by
  rw [step_of_latched (i := i) (by simpa using hrst) (by simpa using hst) (by simpa using hreq),
    exec_of_latched (by simpa using hst) (by simpa using hreq) (by simpa using precheck_eq_none.mpr hchecks),
    busAnswer_cfg, busAnswer_step]

section Request

variable {i : Instr} {s : State} {d e : Device} {xs : List StepDraw} {p : SeqStep} {ps : List SeqStep}
  {es fs : List Event} {tm : Timer}

/-- A request that stands in its row with nothing ready takes the device's answer and goes on. -/
theorem AlongRow.step_busAnswer {x : StepDraw} (row : AlongRow s.cfg i es (p :: ps)) (hrst : s.rst = false)
    (hchecks : checksPass s.cfg i = true) (hpoll : .pollBit ∉ sequenceRow s.cfg i)
    (hbus : s.bus = ⟨[], [], [], []⟩) (hends : tm.ends = []) (hx : x.err = false) :
    AlongRow s.cfg i (es ++ [turnEvent p d]) ps ∧ ∃ tm' : Timer, tm'.ends = [] ∧
      Machine.step (busAnswer x (stepPrim p) [d] (s.afterEvents i es s.bus tm)) =
        runSteps (completionOf i) ps (lastBit (es ++ [turnEvent p d]))
          (s.afterEvents i (es ++ [turnEvent p d]) s.bus tm') := by
  have notDone : endsRow p (bitRead (turnEvent p d)) = false := eq_false_of_ne_true fun ends => by
    obtain ⟨rfl, -⟩ := endsRow_bitRead.mp ends
    exact hpoll row.step_mem
  obtain ⟨tm', hends', hissue⟩ := issue_busAnswer p d (x := x) (s := s.afterEvents i es s.bus tm) hx hbus hends
  refine ⟨row.next ⟨answers_turnEvent p d, notDone⟩, tm', hends', ?_⟩
  have hstep := step_busAnswer_of_latched x (stepPrim p) [d] (s := s.afterEvents i es s.bus tm) hrst rfl rfl hchecks
  rw [show (s.afterEvents i es s.bus tm).step = es.length from rfl,
    show (s.afterEvents i es s.bus tm).cfg = s.cfg from rfl, ← row.rest_eq, runSteps, hissue] at hstep
  simp only [notDone, Bool.false_eq_true, if_false] at hstep
  rw [hstep, lastBit_concat, ← row.took_afterEvents (answers_turnEvent p d)]
  rfl

/-- Where a request stands in its row with nothing ready, the closed loop runs it to its completion. -/
theorem Exchange.proceed_eq (h : Exchange s.cfg xs ps d fs e) (hrst : s.rst = false)
    (hchecks : checksPass s.cfg i = true) (hpoll : .pollBit ∉ sequenceRow s.cfg i) (hbus : s.bus = ⟨[], [], [], []⟩)
    (row : AlongRow s.cfg i es ps) (hends : tm.ends = []) :
    ∃ tm' : Timer, tm'.ends = [] ∧
      System.proceed xs [d] (runSteps (completionOf i) ps (lastBit es) (s.afterEvents i es s.bus tm)) =
        System.proceed [] [e] (completionOf i (lastBit (es ++ fs)) (s.afterEvents i (es ++ fs) s.bus tm')) := by
  induction h generalizing es tm with
  | done d => exact ⟨tm, hends, by rw [List.append_nil, runSteps]⟩
  | @turn x xs p ps d e fs noErr defined more ih =>
    obtain ⟨row', tm₁, hends₁, hstep⟩ := row.step_busAnswer (d := d) hrst hchecks hpoll hbus hends noErr
    obtain ⟨tm', hends', hrest⟩ := ih row' hends₁
    refine ⟨tm', hends', ?_⟩
    have hport : (s.afterEvents i es s.bus tm).portOut = some (stepPrim p) := by
      simp [State.portOut, State.afterEvents, row.step_eq]
    rw [runSteps, issue_waiting.mpr (unanswered_of_quiet (s := s.afterEvents i es s.bus tm) hbus hends _)]
    calc System.run (x :: xs) ⟨s.afterEvents i es s.bus tm, [d]⟩
      _ = System.proceed xs [devStep s.cfg x (stepPrim p) d]
            (Machine.step (busAnswer x (stepPrim p) [d] (s.afterEvents i es s.bus tm))) :=
          System.run_of_presented xs hrst hport noErr defined
      _ = _ := by rw [hstep, hrest, List.append_assoc, List.singleton_append]

end Request

/-! ## What a device makes of a row, whatever the draws -/

/-- A device as `P` says answers the steps `ps` with the events `es`, and is then as `Q` says, for every draw without
`Err`. -/
def Serves (c : Config) (ps : List SeqStep) (es : List Event) (P Q : Device → Prop) : Prop :=
  ∀ (d : Device) (xs : List StepDraw), P d → xs.length = ps.length → NoErr xs → ∃ e, Exchange c xs ps d es e ∧ Q e

section Serves

variable {c : Config} {p : SeqStep} {ps : List SeqStep} {ev : Event} {es : List Event} {P Q R : Device → Prop}

theorem Serves.nil (h : ∀ d, P d → Q d) : Serves c [] [] P Q := by
  intro d xs hP hlen _
  obtain rfl := List.length_eq_zero_iff.mp hlen
  exact ⟨d, .done d, h d hP⟩

/-- A device's turn in one step, and the rest of the row after it. -/
theorem Serves.cons
    (turn : ∀ (d : Device) (x : DevDraw) (us : Nat), P d → primUs (stepPrim p) ≤ us → turnEvent p d = ev ∧
      (devTurn c x (stepPrim p) d).phase ≠ .undefined ∧ R (devElapse us (devTurn c x (stepPrim p) d)))
    (more : Serves c ps es R Q) : Serves c (p :: ps) (ev :: es) P Q := by
  intro d xs hP hlen hxs
  obtain ⟨x, xs, rfl⟩ := List.exists_cons_of_length_eq_add_one hlen
  obtain ⟨hx, hxs⟩ := List.forall_mem_cons.mp hxs
  obtain ⟨rfl, defined, hR⟩ := turn d (x.dev 0) (primUs (stepPrim p) + x.extraUs) hP (Nat.le_add_right ..)
  obtain ⟨e, hmore, hQ⟩ := more _ xs hR (by simpa using hlen) hxs
  exact ⟨e, .turn hx defined hmore, hQ⟩

/-- The closed loop takes a request from its frame to its completion with a device that serves its row. -/
theorem System.run_of_serves {i : Instr} {s : State} {d : Device} {frames : List (List Byte)} {xs : List StepDraw}
    (serves : Serves s.cfg (sequenceRow s.cfg i) es P Q) (rest : AtRest s) (hframes : s.frames = encode i :: frames)
    (hwf : i.wf s.cfg = true) (hchecks : checksPass s.cfg i = true) (hpoll : .pollBit ∉ sequenceRow s.cfg i)
    (hdef : d.phase ≠ .undefined) (hP : ∀ us, P (devElapse us d)) (hlen : xs.length = (sequenceRow s.cfg i).length + 1)
    (hxs : NoErr xs) :
    ∃ (tm : Timer) (e : Device), tm.ends = [] ∧ Q e ∧
      System.run xs ⟨s, [d]⟩ = System.proceed [] [e]
        (completionOf i (lastBit es) (State.afterEvents i es s.bus tm { s with frames := frames })) := by
  obtain ⟨x, xs, rfl⟩ := List.exists_cons_of_length_eq_add_one hlen
  obtain ⟨-, hxs⟩ := List.forall_mem_cons.mp hxs
  obtain ⟨e, exchange, hQ⟩ := serves _ xs (hP x.extraUs) (by simpa using hlen) hxs
  obtain ⟨hrst, hidle, hbus, hends⟩ := rest
  obtain ⟨tm, htm, hrun⟩ := exchange.proceed_eq (s := { s with frames := frames }) hrst hchecks hpoll hbus .start hends
  refine ⟨tm, e, htm, hQ, ?_⟩
  rw [System.run_of_idle xs hrst hidle hdef,
    step_of_request hrst hidle hframes (decodeOfEncodeIsTheRequest s.cfg i hwf),
    exec_eq_runSteps (s := { s with frames := frames }) hidle hchecks, ← afterEvents_nil]
  exact hrun

end Serves

/-! ## The function commands (R8, R75) -/

section Commands

variable {c : Config} (x : DevDraw) (d : Device)

theorem devCommand_readSp :
    devCommand c x c.cmdReadSp d = { d with phase := .sending (rawBytes (spSeen x.seesNew d.conv d.sp)) } := by
  simp [devCommand]

theorem devCommand_writeSp (h : c.wf) : devCommand c x c.cmdWriteSp d = { d with phase := .receiving [] } := by
  obtain ⟨distinct, -⟩ := h
  have notRead : c.cmdWriteSp ≠ c.cmdReadSp := fun h => by simp [h] at distinct
  simp [devCommand, notRead]

theorem devCommand_copySp (h : c.wf) : devCommand c x c.cmdCopySp d =
    { d with copy := some ⟨⟨d.sp.b2, d.sp.b3, d.sp.b4⟩, d.writeUs⟩, phase := .off } := by
  obtain ⟨distinct, -⟩ := h
  have notRead : c.cmdCopySp ≠ c.cmdReadSp := fun h => by simp [h] at distinct
  have notWrite : c.cmdCopySp ≠ c.cmdWriteSp := fun h => by simp [h] at distinct
  simp [devCommand, notRead, notWrite]

end Commands

/-! ## A device through its turns (R72 to R76) -/

/-- `e` is the device `d` later in time, with no recall under way: its settings are as they were, and so is its whole
scratchpad where no conversion is under way. -/
structure Keeps (d e : Device) : Prop where
  addr : e.addr = d.addr
  writeUs : e.writeUs = d.writeUs
  recallLeft : e.recallLeft = none
  settings : e.sp.b2 = d.sp.b2 ∧ e.sp.b3 = d.sp.b3 ∧ e.sp.b4 = d.sp.b4
  quiet : d.conv = none → e.conv = none ∧ e.sp = d.sp

/-- `e` is the device `d` later in time, in the phase `ph` of a bus sequence. -/
structure StandsAt (d : Device) (ph : DevPhase) (e : Device) : Prop extends Keeps d e where
  phase : e.phase = ph

section Keeps

variable {d e : Device} {ph : DevPhase}

theorem Keeps.refl (h : d.recallLeft = none) : Keeps d d := ⟨rfl, rfl, h, ⟨rfl, rfl, rfl⟩, fun hc => ⟨hc, rfl⟩⟩

theorem Keeps.devElapse (h : Keeps d e) (us : Nat) : Keeps d (devElapse us e) where
  addr := h.addr
  writeUs := h.writeUs
  recallLeft := by simp [Machine.devElapse, h.recallLeft]
  settings := by simpa [Machine.devElapse, h.recallLeft] using h.settings
  quiet hc := by
    obtain ⟨hconv, hsp⟩ := h.quiet hc
    exact ⟨by simp [Machine.devElapse, hconv], (devElapse_sp us hconv h.recallLeft).trans hsp⟩

theorem StandsAt.devElapse (h : StandsAt d ph e) (us : Nat) : StandsAt d ph (devElapse us e) :=
  ⟨h.toKeeps.devElapse us, h.phase⟩

theorem Keeps.setPhase (h : Keeps d e) (ph : DevPhase) : StandsAt d ph { e with phase := ph } :=
  ⟨⟨h.addr, h.writeUs, h.recallLeft, h.settings, h.quiet⟩, rfl⟩

theorem StandsAt.devTurn_command (h : StandsAt d .command e) (c : Config) (x : DevDraw) (b : Byte) :
    devTurn c x (.writeByte b) e = devCommand c x b e := by simp [devTurn, devWrite, h.phase]

theorem StandsAt.devTurn_data {data : List Byte} (h : StandsAt d (.receiving data) e) (c : Config) (x : DevDraw)
    (b : Byte) (hlen : data.length ≠ 2) :
    StandsAt d (.receiving (data ++ [b])) (devTurn c x (.writeByte b) e) := by
  rw [devTurn, devWrite_of_receiving c x b h.phase hlen]
  exact h.toKeeps.setPhase _

end Keeps

section Rows

variable {c : Config} {d : Device} {p : SeqStep} {ps : List SeqStep} {ev : Event} {es : List Event}
  {ph : DevPhase} {P Q : Device → Prop}

/-- A turn that brings a device to a phase, whatever time it takes, and the rest of the row from there. -/
theorem Serves.turn (hph : ph ≠ .undefined)
    (turn : ∀ (e : Device) (x : DevDraw), P e → turnEvent p e = ev ∧ StandsAt d ph (devTurn c x (stepPrim p) e))
    (more : Serves c ps es (StandsAt d ph) Q) : Serves c (p :: ps) (ev :: es) P Q :=
  .cons (fun e x us hP _ => by
    obtain ⟨hev, stands⟩ := turn e x hP
    exact ⟨hev, stands.phase ▸ hph, stands.devElapse us⟩) more

/-- A bus reset and its own address bring a device to await its command, whatever it was at (R74, R202). -/
theorem serves_opened (more : Serves c ps es (StandsAt d .command) Q) :
    Serves c (openAddressed d.addr ++ ps) (opened d.addr ++ es) (Keeps d) Q := by
  refine .turn (d := d) (ph := .off) nofun (fun e x h => ⟨rfl, h.setPhase .off⟩)
    (.turn (d := d) (ph := .command) nofun (fun e x h => ⟨rfl, ?_⟩) more)
  simpa [devTurn, stepPrim, h.addr] using h.toKeeps.setPhase .command

/-- The data phase of a write reaches the scratchpad with its third byte (R61, R75). -/
theorem serves_data (hconv : d.conv = none) (th tl b : Byte) :
    Serves c [.write th, .write tl, .write b] [.write th (.ok ()), .write tl (.ok ()), .write b (.ok ())]
      (StandsAt d (.receiving [])) (StandsAt { d with sp := spWritten c th tl b d.sp } .off) := by
  refine .turn (d := d) (ph := .receiving [th]) nofun (fun e x h => ⟨rfl, ?_⟩)
    (.turn (d := d) (ph := .receiving [th, tl]) nofun (fun e x h => ⟨rfl, ?_⟩)
      (.turn (d := { d with sp := spWritten c th tl b d.sp }) (ph := .off) nofun (fun e x h => ⟨rfl, ?_⟩)
        (.nil fun _ h => h)))
  · exact h.devTurn_data c x th nofun
  · exact h.devTurn_data c x tl nofun
  · obtain ⟨hconv', hsp⟩ := h.quiet hconv
    have hwrite : devTurn c x (stepPrim (.write b)) e = { e with sp := spWritten c th tl b d.sp, phase := .off } := by
      simp [devTurn, stepPrim, devWrite, h.phase, hsp]
    rw [hwrite]
    exact ⟨⟨h.addr, h.writeUs, h.recallLeft, ⟨rfl, rfl, rfl⟩, fun _ => ⟨hconv', rfl⟩⟩, rfl⟩

/-- A device that sends drives the bytes it has to send, one at each read (R75). -/
theorem serves_reads (js : List (Fin 9)) (bs : List Byte) (h : js.length = bs.length) :
    Serves c (js.map .readInto) (bs.map fun b => .read (.ok b)) (StandsAt d (.sending bs)) (Keeps d) := by
  induction bs generalizing js with
  | nil =>
    obtain rfl := List.length_eq_zero_iff.mp h
    exact .nil fun e h => h.toKeeps
  | cons b bs ih =>
    obtain ⟨j, js, rfl⟩ := List.exists_cons_of_length_eq_add_one h
    refine .turn (d := d) (ph := .sending bs) nofun (fun e x h => ⟨?_, ?_⟩) (ih js (by simpa using h))
    · simp [turnEvent, devByte, h.phase]
    · simpa [devTurn, stepPrim, h.phase] using h.toKeeps.setPhase (.sending bs)

/-- The six events of a scratchpad write that is answered in full (R210, R211, R217). -/
def writeEvents (c : Config) (a : Addr) (th tl b : Byte) : List Event :=
  opened a ++ [c.cmdWriteSp, th, tl, b].map fun v => Event.write v (.ok ())

/-- A write's row gives the device its three settings (R75, R210, R211). -/
theorem serves_write (hc : c.wf) (hconv : d.conv = none) (th tl b : Byte) :
    Serves c (rowWriteScratchpad c d.addr th tl b) (writeEvents c d.addr th tl b) (Keeps d)
      (StandsAt { d with sp := spWritten c th tl b d.sp } .off) := by
  refine serves_opened (.turn (d := d) (ph := .receiving []) nofun (fun e x h => ⟨rfl, ?_⟩) (serves_data hconv th tl b))
  rw [stepPrim, h.devTurn_command, devCommand_writeSp x e hc]
  exact h.toKeeps.setPhase _

/-- A read's row brings the device's scratchpad (R75, R208). -/
theorem serves_read (hconv : d.conv = none) :
    Serves c (rowReadScratchpad c d.addr) (readEvents c d.addr d.sp) (Keeps d) (Keeps d) := by
  refine serves_opened (.turn (d := d) (ph := .sending (rawBytes d.sp)) nofun (fun e x h => ⟨rfl, ?_⟩)
    (serves_reads [0, 1, 2, 3, 4, 5, 6, 7, 8] (rawBytes d.sp) rfl))
  obtain ⟨hconv', hsp⟩ := h.quiet hconv
  have seen : spSeen x.seesNew e.conv e.sp = d.sp := by rw [hconv', hsp, spSeen]
  rw [stepPrim, h.devTurn_command, devCommand_readSp, seen]
  exact h.toKeeps.setPhase _

/-! ## An EEPROM write under way (R75, R299) -/

/-- An EEPROM write is done after its time, however much of that had passed before. -/
theorem copyAfter_copyAfter {k : EepromCopy} {us us' : Nat} (h : k.leftUs ≤ us') (ee : Eeprom) :
    copyAfter us' (copyAfter us ee (some k)).1 (copyAfter us ee (some k)).2 = (k.target, none) := by
  by_cases hdone : k.leftUs ≤ us
  · simp [copyAfter, hdone]
  · simp [copyAfter, hdone, show k.leftUs - us ≤ us' by omega]

/-- The EEPROM write `k` was started at the device some time ago. -/
structure Copying (k : EepromCopy) (e : Device) : Prop where
  course : ∃ us ee, (e.ee, e.copy) = copyAfter us ee (some k)
  phase : e.phase = .off

/-- A copy's row starts the EEPROM write and waits for at least its time (R75, R212, R299). -/
theorem serves_copy (hc : c.wf) (htime : d.writeUs ≤ 1000 * c.eepromWriteDelayMs.toNat) :
    Serves c (rowCopyScratchpad c d.addr)
      (opened d.addr ++ [Event.write c.cmdCopySp (.ok ()), Event.delayMs c.eepromWriteDelayMs]) (Keeps d)
      fun e => (e.ee, e.copy) = (⟨d.sp.b2, d.sp.b3, d.sp.b4⟩, none) := by
  refine serves_opened (.cons (R := Copying ⟨⟨d.sp.b2, d.sp.b3, d.sp.b4⟩, d.writeUs⟩) (fun e x us h _ => ?_)
    (.cons (R := fun e => (e.ee, e.copy) = (⟨d.sp.b2, d.sp.b3, d.sp.b4⟩, none)) (fun e x us h hus => ?_)
      (.nil fun _ h => h)))
  · obtain ⟨h2, h3, h4⟩ := h.settings
    rw [stepPrim, h.devTurn_command, devCommand_copySp x e hc, h2, h3, h4, h.writeUs]
    exact ⟨rfl, nofun, ⟨us, e.ee, rfl⟩, rfl⟩
  · obtain ⟨⟨us₀, ee, hcourse⟩, hphase⟩ := h
    obtain ⟨hee, hcopy⟩ := Prod.mk.inj hcourse
    refine ⟨rfl, by simp [devTurn, stepPrim, hphase], ?_⟩
    simp only [devTurn, stepPrim, devElapse, hee, hcopy]
    exact copyAfter_copyAfter (k := ⟨_, d.writeUs⟩) (htime.trans hus) ee

end Rows

/-! ## The written configuration byte (R75, R94, R143) -/

/-- The device stores the code of the byte it is given over R8's reserved bits, which is what `encode_config` makes. -/
theorem devStoredCfg_eq_encodeConfig {c : Config} (hc : c.wf) {b : Byte} {r : Res}
    (h : resCode c r = b.extractLsb' 5 2) : devStoredCfg c b = encodeConfig c r := by
  obtain ⟨-, -, -, mask, -⟩ := hc
  have code : b &&& ~~~(0x9F : Byte) = (b.extractLsb' 5 2).setWidth 8 <<< 5 := by
    ext i hi
    interval_cases i <;> simp
  rw [devStoredCfg, encodeConfig, mask, h, code]

theorem extractLsb'_encodeConfig {c : Config} (hc : c.wf) (r : Res) :
    (encodeConfig c r).extractLsb' 5 2 = resCode c r := by
  obtain ⟨-, code⟩ := (eq_encodeConfig hc).mp (rfl : encodeConfig c r = _)
  exact code.symm

theorem resCode_injective {c : Config} (hc : c.wf) : Function.Injective (resCode c) := fun r r' h =>
  Option.some_injective _ (by rw [← resOfCode_resCode hc r, ← resOfCode_resCode hc r', h])

theorem cfgDecode_encodeConfig {c : Config} (hc : c.wf) (r : Res) : cfgDecode c (encodeConfig c r) = some r := by
  have code := (extractLsb'_encodeConfig hc r).symm
  cases hstrict : c.cfgStrict with
  | true => rw [cfgDecode_eq_some_of_strict hstrict, resOfCode_eq_some hc, ← eq_encodeConfig hc]
  | false => rw [cfgDecode_of_not_strict hstrict, resOfCode_eq_some hc, code]

/-! ## The requests of a write and of a read back (R208, R210, R211, R302) -/

/-- Both requests that write a scratchpad pass their checks, and have one row and one completion. -/
theorem request_of_writesScratchpad {c : Config} {a : Addr} {i : Instr} {th tl b : Byte}
    (h : WritesScratchpad c a i th tl b) (hfamily : familyOk c a = true) :
    i.wf c = true ∧ checksPass c i = true ∧ completionOf i = completeEmpty ∧
      sequenceRow c i = rowWriteScratchpad c a th tl b := by
  obtain rfl | ⟨lo, hi, r, rfl, ⟨hlo, hlo'⟩, ⟨hhi, hhi'⟩, hth, htl, rfl⟩ := h
  · exact ⟨rfl, by simp [checksPass, addressOf, alarmsFit, hfamily], rfl, rfl⟩
  · refine ⟨rfl, by simp [checksPass, addressOf, alarmsFit, inAlarmRange, hfamily, hlo, hlo', hhi, hhi'], rfl, ?_⟩
    rw [sequenceRow, rowSetConfig, ← hth, ← htl, trunc8_alarmDegrees, trunc8_alarmDegrees, rowWriteScratchpad]

/-- SET_CONFIG's byte is stored as it is, and it is the byte of no other resolution (R94, R143). -/
theorem setConfig_of_writesScratchpad {c : Config} {a : Addr} {lo hi : Word16} {r r' : Res} {th tl b : Byte}
    (h : WritesScratchpad c a (.setConfig a lo hi r') th tl b) (hc : c.wf) (hcode : resCode c r = b.extractLsb' 5 2) :
    devStoredCfg c b = b ∧ r' = r := by
  obtain h | ⟨_, _, _, h, -, -, -, -, rfl⟩ := h <;> cases h
  rw [extractLsb'_encodeConfig hc] at hcode
  obtain rfl := resCode_injective hc hcode
  exact ⟨devStoredCfg_eq_encodeConfig hc (extractLsb'_encodeConfig hc r).symm, rfl⟩

theorem scratchpadRecord_eq (raw : Raw9) (r : Res) :
    scratchpadRecord raw r = [raw.b0, raw.b1, raw.b2, raw.b3, resByte r, raw.b8] := by
  simp [scratchpadRecord, le16, rawTemp, rawTh, rawTl, rawCrc]

/-- A scratchpad read that has received good bytes completes with its record (R208). -/
theorem completeRead_of_received (record : Raw9 → Res → List Byte) (last : Option (BitVec 1)) {s : State} {raw : Raw9}
    {r : Res} (hrx : s.rx = received raw) (hcrc : crc8 (rawData raw) = raw.b8)
    (hcfg : cfgDecode s.cfg raw.b4 = some r) :
    completeRead record last s = .next (s.crcRelease.respond (record raw r)) := by
  rw [completeRead, readRx_of_received hrx]
  exact congrArg _ (decodeScratchpad_of_good record hcrc hcfg)

section Runs

variable {s : State} {d e : Device} {frames : List (List Byte)} {xs : List StepDraw}

/-- A request that writes a scratchpad completes with OK, and leaves the core at rest and the device with what it
wrote. -/
theorem System.run_of_writesScratchpad {i : Instr} {th tl b : Byte} (hwrites : WritesScratchpad s.cfg d.addr i th tl b)
    (rest : AtRest s) (hc : s.cfg.wf) (hd : d.wf s.cfg) (hdef : d.phase ≠ .undefined) (hconv : d.conv = none)
    (hrecall : d.recallLeft = none) (hframes : s.frames = encode i :: frames) (hlen : xs.length = 7) (hxs : NoErr xs) :
    ∃ t e, System.run xs ⟨s, [d]⟩ = some ⟨t, [e]⟩ ∧ AtRest t ∧ t.cfg = s.cfg ∧ t.frames = frames ∧
      t.respStatus = some .ok ∧ StandsAt { d with sp := spWritten s.cfg th tl b d.sp } .off e := by
  obtain ⟨hfamily, -⟩ := hd
  obtain ⟨hwf, hchecks, hcompletion, hrow⟩ := request_of_writesScratchpad hwrites hfamily
  obtain ⟨tm, e, htm, written, hrun⟩ := System.run_of_serves (hrow ▸ serves_write hc hconv th tl b) rest hframes hwf
    hchecks (by simp [hrow, rowWriteScratchpad, openAddressed]) hdef (Keeps.refl hrecall).devElapse
    (by rw [hlen, hrow]; rfl) hxs
  rw [hcompletion] at hrun
  exact ⟨_, e, hrun, ⟨rest.rst, rfl, rest.bus, htm⟩, rfl, rfl, rfl, written⟩

/-- A scratchpad read completes with the record of the device's scratchpad. -/
theorem System.run_of_readScratchpad {r : Res} (keeps : Keeps d e) (rest : AtRest s) (hd : d.wf s.cfg)
    (hcfg : cfgDecode s.cfg d.sp.b4 = some r) (hdef : e.phase ≠ .undefined) (hconv : d.conv = none)
    (hframes : s.frames = encode (.readScratchpad d.addr) :: frames) (hlen : xs.length = 13) (hxs : NoErr xs) :
    ∃ t e', System.run xs ⟨s, [e]⟩ = some ⟨t, [e']⟩ ∧ t.st = .idle ∧ t.frames = frames ∧ t.respStatus = some .ok ∧
      e'.sp = d.sp ∧ t.rx = received d.sp ∧ t.respValue = some (scratchpadRecord d.sp r) := by
  obtain ⟨hfamily, hcrc⟩ := hd
  obtain ⟨tm, e', -, keeps', hrun⟩ := System.run_of_serves (i := .readScratchpad d.addr) (serves_read hconv) rest
    hframes rfl (checksPass_of_family rfl rfl (eq_of_beq hfamily))
    (by simp [sequenceRow, rowReadScratchpad, openAddressed]) hdef keeps.devElapse hlen hxs
  have hrx := receivedIn_readEvents s.cfg d.addr d.sp
  obtain ⟨-, hsp⟩ := keeps'.quiet hconv
  rw [completionOf, completeRead_of_received (s := State.afterEvents _ _ s.bus tm { s with frames := frames }) _ _ hrx
    hcrc.symm hcfg] at hrun
  exact ⟨_, e', hrun, rfl, rfl, rfl, hsp, hrx, rfl⟩

/-- A copy at a device whose write time is within the delay completes with OK, and the EEPROM write is done. -/
theorem System.run_of_copyScratchpad (rest : AtRest s) (hc : s.cfg.wf) (hd : d.wf s.cfg) (hdef : d.phase ≠ .undefined)
    (htime : d.writeUs ≤ 1000 * s.cfg.eepromWriteDelayMs.toNat) (hrecall : d.recallLeft = none)
    (hframes : s.frames = encode (.copyScratchpad d.addr) :: frames) (hlen : xs.length = 5) (hxs : NoErr xs) :
    ∃ t e, System.run xs ⟨s, [d]⟩ = some ⟨t, [e]⟩ ∧ t.st = .idle ∧ t.respStatus = some .ok ∧
      (e.ee, e.copy) = (⟨d.sp.b2, d.sp.b3, d.sp.b4⟩, none) := by
  obtain ⟨hfamily, -⟩ := hd
  obtain ⟨tm, e, -, hcopy, hrun⟩ := System.run_of_serves (i := .copyScratchpad d.addr) (serves_copy hc htime) rest
    hframes rfl (checksPass_of_family rfl rfl (eq_of_beq hfamily))
    (by simp [sequenceRow, rowCopyScratchpad, openAddressed]) hdef (Keeps.refl hrecall).devElapse hlen hxs
  exact ⟨_, e, hrun, rfl, rfl, hcopy⟩

end Runs

end Sys2Proof.Machine

namespace Sys2Proof

open Machine Claims

/-- Settles O59: the write leaves the device with the settings it was sent, and the read brings them back; the byte that
the device stored decodes to its resolution. -/
theorem writtenConfigurationReadsBack : Obligations.WrittenConfigurationReadsBack := by
  intro s d i th tl b r xs ys hc hrst hidle hbus hends hd hdef hconv hrecall hwrites hcode hframes hxlen hylen hxs hys
  refine ⟨fun lo hi r' hi => setConfig_of_writesScratchpad (hi ▸ hwrites) hc hcode, ?_⟩
  obtain ⟨t, e, hrun, rest, hcfg, hleft, hok, written⟩ := System.run_of_writesScratchpad hwrites
    ⟨hrst, hidle, hbus, hends⟩ hc hd hdef hconv hrecall hframes hxlen hxs
  obtain ⟨hfamily, -⟩ := hd
  have stored : cfgDecode s.cfg (devStoredCfg s.cfg b) = some r := by
    rw [devStoredCfg_eq_encodeConfig hc hcode, cfgDecode_encodeConfig hc]
  obtain ⟨t', e', hrun', hidle', hframes', hok', hsp, hrx, hvalue⟩ := System.run_of_readScratchpad (r := r)
    written.toKeeps rest (by rw [hcfg]; exact ⟨hfamily, spWritten_b8 ..⟩) (by rw [hcfg]; exact stored)
    (written.phase ▸ nofun) hconv hleft hylen hys
  refine ⟨_, _, hrun, rest.idle, hok, hrun', hidle', hframes', hok', by simpa using hsp, hrx, hvalue.trans ?_⟩
  rw [scratchpadRecord_eq]
  rfl

/-- Settles O60: the copy's row ends in a delay that is at least the device's write time. -/
theorem copyIsDoneWhenTheRequestCompletes : Obligations.CopyIsDoneWhenTheRequestCompletes := by
  intro s d xs hc hrst hidle hbus hends hd hdef htime hrecall hframes hlen hxs
  obtain ⟨t, e, hrun, hidle', hok, hcopy⟩ := System.run_of_copyScratchpad ⟨hrst, hidle, hbus, hends⟩ hc hd hdef htime
    hrecall hframes hlen hxs
  exact ⟨_, hrun, hidle', hok, congrArg ([·]) hcopy⟩

/-- Settles O48: it is the form of a step that finds no frame. -/
theorem idleCoreWaits : Obligations.IdleCoreWaits := fun _ => step_of_noFrame

/-- Settles O49: it is the form of a step that finds `rst`. -/
theorem resetAbandonsTheRequest : Obligations.ResetAbandonsTheRequest := fun _ => step_of_rst

end Sys2Proof
end
